-- ==== Sys2Proof/Word.lean ====
section
/-! DEFINITION. The word types of the block. Every value is an unsigned bit vector of a stated width (00_scope.md R9;
10_state.md R20); nothing is ever sign-extended (20_memory.md R70). -/

namespace Sys2Proof

/-- One byte of the wire, of `RXBUF`; a state encoding, which is one byte (R9; 30_encoding.md R104, log 5). -/
abbrev Byte := BitVec 8

/-- A 16-bit value: `LENGTH`, a servo angle (R25, R40, R41). -/
abbrev Half := BitVec 16

/-- An unsigned count of milliseconds (60_exceptions.md R285). The time input and the timestamp hold `TIME_W` bits of it:
their values are below 2^`TIME_W`, a field of the configuration (R6, log 5). -/
abbrev Time := Nat

/-- The route number of an external handler (10_state.md R34). A bound route is below 2^`ROUTE_W`, a field of the
configuration (R6, log 5). -/
abbrev Route := Nat

/-- The byte-position cursor's width, 11 bits (10_state.md R27). -/
abbrev Cursor := BitVec 11

end Sys2Proof
end

