-- ==== Sys2Proof/Config.lean ====
section
/-! DEFINITION. The parameters of the block: the constants the source fixes (00_scope.md R5, R7) and the parameters it
leaves open (R6; 92_eei_decisions.md section 6), the latter as the fields of `Config`. A configuration is fixed for a run
and is a field of State, so that a statement about every state is a statement about every configuration (U10). -/

namespace Sys2Proof

/-- The thirteen wire commands, in the order of the source's list (30_encoding.md R95). -/
inductive Command where
  | heartbeat | setExpression | setServo | playAudio | recordAudio | sendImage | setState
  | getStatus | sensorData | recordControl | cameraControl | setGaze | error
deriving DecidableEq, Repr

/-- The thirteen commands as a list: the members of `CMD_SET` by name (R95). -/
def Command.all : List Command :=
  [.heartbeat, .setExpression, .setServo, .playAudio, .recordAudio, .sendImage, .setState,
   .getStatus, .sensorData, .recordControl, .cameraControl, .setGaze, .error]

/-- The five real states, "the five real states" of 00_scope.md R19 (30_encoding.md R104). `IDLE` is not one of them:
it is the "pre-init sentinel" and `TRANSITION` is never called with it (42_behavior_controller.md R204). -/
inductive RealState where
  | sleep | wake | listen | think | talk
deriving DecidableEq, Repr

/-- The five real states as a list. -/
def RealState.all : List RealState := [.sleep, .wake, .listen, .think, .talk]

namespace Config

/-- `HEAD`, the synchronization byte (R5, R91). -/
def head : Byte := 0xAA

/-- `MAX_PAYLOAD`, the largest legal `LENGTH` and the size of `RXBUF` in bytes (R5). -/
def maxPayload : Nat := 1024

/-- `MAX_FRAME` = 4 + `MAX_PAYLOAD` + 1 (R5). -/
def maxFrame : Nat := 1029

/-- `CRC_POLY`, the checksum polynomial byte (R5). -/
def crcPoly : Byte := 0x07

/-- `WAKE_TIMEOUT_MS` (R5). -/
def wakeTimeoutMs : Nat := 2000

/-- `CMD_SET_STATE`, the one command identifier the source fixes (R5). -/
def cmdSetState : Byte := 0x07

/-- `ST_TALK`, the one state encoding the source fixes (R5). -/
def stTalk : Byte := 5

/-- The upper end of the battery range 0 to 100 (R5). -/
def batteryMax : Nat := 100

/-- `PAYLOAD_OFFSET`, the frame offset of the first payload byte (R7). -/
def payloadOffset : Nat := 4

end Config

/-- The open parameters of 00_scope.md R6: one named field each. -/
structure Config where
  /-- `CRC_INIT` (D3). -/
  crcInit : Byte
  /-- `Q_DEPTH`, the capacity of the Outbound Queue in frames (D6). -/
  qDepth : Nat
  /-- `TIME_W`, the width in bits of the time input and of `state_enter_timestamp` (D12). -/
  timeW : Nat
  /-- `STATE_W`, the width in bits of the state registers (D7). -/
  stateW : Nat
  /-- `ROUTE_W`, the width in bits of a route number (D18). -/
  routeW : Nat
  /-- `ST_IDLE` (D7). -/
  stIdle : Byte
  /-- `ST_SLEEP` (D7). -/
  stSleep : Byte
  /-- `ST_WAKE` (D7). -/
  stWake : Byte
  /-- `ST_LISTEN` (D7). -/
  stListen : Byte
  /-- `ST_THINK` (D7). -/
  stThink : Byte
  /-- `CMD_HEARTBEAT` (D8), as are the eleven fields after it. -/
  cmdHeartbeat : Byte
  cmdSetExpression : Byte
  cmdSetServo : Byte
  cmdPlayAudio : Byte
  cmdRecordAudio : Byte
  cmdSendImage : Byte
  cmdGetStatus : Byte
  cmdSensorData : Byte
  cmdRecordControl : Byte
  cmdCameraControl : Byte
  cmdSetGaze : Byte
  cmdError : Byte
  /-- `STATUS_CMD`, the command identifier of a status frame (D9). -/
  statusCmd : Byte
  /-- `BATTERY_RESET` (D13). -/
  batteryReset : Byte
  /-- `SERVO_H_RESET` (D13). -/
  servoHReset : Half
  /-- `SERVO_V_RESET` (D13). -/
  servoVReset : Half
deriving DecidableEq, Repr

namespace Config

/-- The default column of R6. -/
def default : Config where
  crcInit := 0x00
  qDepth := 8
  timeW := 32
  stateW := 8
  routeW := 8
  stIdle := 0
  stSleep := 1
  stWake := 2
  stListen := 3
  stThink := 4
  cmdHeartbeat := 0x01
  cmdSetExpression := 0x02
  cmdSetServo := 0x03
  cmdPlayAudio := 0x04
  cmdRecordAudio := 0x05
  cmdSendImage := 0x06
  cmdGetStatus := 0x08
  cmdSensorData := 0x09
  cmdRecordControl := 0x0A
  cmdCameraControl := 0x0B
  cmdSetGaze := 0x0C
  cmdError := 0x0D
  statusCmd := 0x07
  batteryReset := 100
  servoHReset := 0x005A
  servoVReset := 0x005A

/-- The identifier of a command under a configuration (30_encoding.md R95). -/
def cmd (cfg : Config) : Command → Byte
  | .heartbeat => cfg.cmdHeartbeat
  | .setExpression => cfg.cmdSetExpression
  | .setServo => cfg.cmdSetServo
  | .playAudio => cfg.cmdPlayAudio
  | .recordAudio => cfg.cmdRecordAudio
  | .sendImage => cfg.cmdSendImage
  | .setState => cmdSetState
  | .getStatus => cfg.cmdGetStatus
  | .sensorData => cfg.cmdSensorData
  | .recordControl => cfg.cmdRecordControl
  | .cameraControl => cfg.cmdCameraControl
  | .setGaze => cfg.cmdSetGaze
  | .error => cfg.cmdError

/-- The command an identifier names, none outside the closed set `CMD_SET` (R95, R107 (d)). -/
def commandOf (cfg : Config) (c : Byte) : Option Command :=
  Command.all.find? (fun x => cfg.cmd x = c)

/-- `c ∈ CMD_SET` (R95). -/
def inCmdSet (cfg : Config) (c : Byte) : Bool := (cfg.commandOf c).isSome

/-- The encoding of a real state under a configuration (R104). -/
def enc (cfg : Config) : RealState → Byte
  | .sleep => cfg.stSleep
  | .wake => cfg.stWake
  | .listen => cfg.stListen
  | .think => cfg.stThink
  | .talk => stTalk

/-- The real state a byte encodes, none for `IDLE`'s encoding and for every byte outside the enumeration (R104). -/
def realOf (cfg : Config) (v : Byte) : Option RealState :=
  RealState.all.find? (fun x => cfg.enc x = v)

/-- The constraints a configuration must meet (92_eei_decisions.md section 6; 93_implementation_defined.md U10):
command identifiers pairwise distinct, state encodings pairwise distinct and each below 2^`STATE_W`,
`Q_DEPTH` ≥ 1, `BATTERY_RESET` ≤ 100. -/
abbrev wf (cfg : Config) : Prop :=
  (Command.all.map cfg.cmd).Nodup ∧ (cfg.stIdle :: RealState.all.map cfg.enc).Nodup ∧
    1 ≤ cfg.qDepth ∧ cfg.batteryReset.toNat ≤ batteryMax ∧
    ∀ v ∈ cfg.stIdle :: RealState.all.map cfg.enc, v.toNat < 2 ^ cfg.stateW

/-- No byte occurs twice. -/
def distinct : List Byte → Bool
  | [] => true
  | b :: bs => !bs.elem b && distinct bs

/-- `wf` as the check a step makes (`legal_iff`, Laws/Config.lean). -/
def legal (cfg : Config) : Bool :=
  distinct (Command.all.map cfg.cmd) && distinct (cfg.stIdle :: RealState.all.map cfg.enc) &&
    (decide (1 ≤ cfg.qDepth) && (decide (cfg.batteryReset.toNat ≤ batteryMax) &&
      (cfg.stIdle :: RealState.all.map cfg.enc).all (fun v => decide (v.toNat < 2 ^ cfg.stateW))))

end Config

end Sys2Proof
end

