-- ==== Sys2Proof/Machine/Checksum.lean ====
section
/-! DEFINITION. The checksum unit: `crc8_byte` and `crc8` of 40_frame_transport.md R120. -/

namespace Sys2Proof.Machine

/-- One shift of the accumulator: left by one, and if bit 7 was set before the shift, exclusive-OR of the post-shift value
with `CRC_POLY` (R120). -/
def crcShift (a : Byte) : Byte :=
  if a.getLsbD 7 then (a <<< 1) ^^^ Config.crcPoly else a <<< 1

/-- `k b`. The match makes an evaluation compute the byte `b` once, before it goes on; `afterByte_eq`
(Laws/Checksum.lean) says that it is nothing else. -/
def afterByte (b : Byte) (k : Byte → Byte) : Byte :=
  match b.toNat with
  | 0 => k 0
  | n + 1 => k (BitVec.ofNat 8 (n + 1))

/-- `n` shifts. -/
def crcShifts : Nat → Byte → Byte
  | 0, a => a
  | n + 1, a => afterByte (crcShift a) (crcShifts n)

/-- `crc8_byte`: the byte is exclusive-ORed into the accumulator, which is then shifted eight times (R120). -/
def crc8Byte (acc b : Byte) : Byte := crcShifts 8 (acc ^^^ b)

/-- The accumulator after a sequence of bytes, from a given accumulator (R120, R122). -/
def crc8From : Byte → List Byte → Byte
  | acc, [] => acc
  | acc, b :: bs => afterByte (crc8Byte acc b) (fun a => crc8From a bs)

/-- `crc8`: the accumulator starts at `CRC_INIT` (R120, decision D3). -/
def crc8 (cfg : Config) (bs : List Byte) : Byte := crc8From cfg.crcInit bs

end Sys2Proof.Machine
end

