-- ==== Sys2Proof/Machine/Operands.lean ====
section
/-! DEFINITION. Byte order, the wire form of a frame, and the payload layouts: every operand form of the block
(20_memory.md R65, R66; 30_encoding.md R90, R100 to R102, R111, R112). -/

namespace Sys2Proof.Machine

/-- Bits 7 to 0 of a 16-bit value (R65). -/
def lo8 (h : Half) : Byte := h.extractLsb' 0 8

/-- Bits 15 to 8 of a 16-bit value (R65). -/
def hi8 (h : Half) : Byte := h.extractLsb' 8 8

/-- A 16-bit value from its low and its high byte: the low byte plus 256 times the high byte (R65, R93). -/
def le16 (lo hi : Byte) : Half := BitVec.ofNat 16 (lo.toNat + 256 * hi.toNat)

/-- The two bytes of a 16-bit field, low byte first (R66). -/
def bytes16 (h : Half) : List Byte := [lo8 h, hi8 h]

/-- The four bytes of a 32-bit field, low byte first (R66). -/
def bytes32 (w : BitVec 32) : List Byte :=
  [w.extractLsb' 0 8, w.extractLsb' 8 8, w.extractLsb' 16 8, w.extractLsb' 24 8]

/-- `LENGTH` of a payload as the 16-bit field of a frame (R93). -/
def lengthOf (payload : List Byte) : Half := BitVec.ofNat 16 payload.length

/-- The bytes a checksum covers: `HEAD`, command, the two length bytes, payload, in wire order
(40_frame_transport.md R121). -/
def covered (command : Byte) (length : Half) (payload : List Byte) : List Byte :=
  Config.head :: command :: lo8 length :: hi8 length :: payload

/-- `FRAME c [p]` of 30_encoding.md R111: the n + 5 bytes of a frame with its right checksum (R90). -/
def frameBytes (cfg : Config) (command : Byte) (payload : List Byte) : List Byte :=
  let bs := covered command (lengthOf payload) payload
  bs ++ [crc8 cfg bs]

/-- The status payload layout, 7 bytes (R100). -/
def statusLayout (state battery expression : Byte) (servoH servoV : Half) : List Byte :=
  [state, battery, expression] ++ bytes16 servoH ++ bytes16 servoV

/-- The heartbeat payload layout, 8 bytes (R101). The block neither builds nor reads it. -/
def heartbeatLayout (uptimeSeconds freeMemoryBytes : BitVec 32) : List Byte :=
  bytes32 uptimeSeconds ++ bytes32 freeMemoryBytes

/-- The sensor-data payload layout, 4 bytes (R102). The block neither builds nor reads it. -/
def sensorLayout (distance : Half) (proximity light : Byte) : List Byte :=
  bytes16 distance ++ [proximity, light]

/-- `SET_STATE s` of R112: a set-state frame of one payload byte. -/
def setStateFrame (cfg : Config) (state : Byte) : List Byte :=
  frameBytes cfg Config.cmdSetState [state]

/-- `STATUS s, bat, e, h, v` of R112. -/
def statusFrame (cfg : Config) (state battery expression : Byte) (servoH servoV : Half) : List Byte :=
  frameBytes cfg cfg.statusCmd (statusLayout state battery expression servoH servoV)

/-- `HEARTBEAT up, free` of R112. -/
def heartbeatFrame (cfg : Config) (uptimeSeconds freeMemoryBytes : BitVec 32) : List Byte :=
  frameBytes cfg cfg.cmdHeartbeat (heartbeatLayout uptimeSeconds freeMemoryBytes)

/-- `SENSOR d, p, l` of R112. -/
def sensorFrame (cfg : Config) (distance : Half) (proximity light : Byte) : List Byte :=
  frameBytes cfg cfg.cmdSensorData (sensorLayout distance proximity light)

/-- `expr_of`, the state-to-expression table (42_behavior_controller.md R201, 30_encoding.md R105). -/
def exprOf : RealState → Byte
  | .sleep => 0x00
  | .wake => 0x01
  | .listen => 0x02
  | .think => 0x03
  | .talk => 0x04

end Sys2Proof.Machine
end

