-- ==== Sys2Proof/Syntax.lean ====
section
/-! DEFINITION. The instructions of the block: the thirteen wire commands of spec/opcode_table.json, one constructor each
(30_encoding.md R95, R109; 41_command_dispatcher.md R170 to R182). -/

namespace Sys2Proof

/-- A wire command: a VALID frame (00_scope.md R19) of the closed command set. `HEAD` is constant (R91), `COMMAND` is the
constructor, `LENGTH` is the number of payload bytes (R93) and `CHECKSUM` is determined by the rest (R94), so the payload is
the one operand (log 9). Any payload of 0 to 1024 bytes is well formed for every command (R106). -/
inductive Instr where
  | heartbeat (payload : List Byte)
  | setExpression (payload : List Byte)
  | setServo (payload : List Byte)
  | playAudio (payload : List Byte)
  | recordAudio (payload : List Byte)
  | sendImage (payload : List Byte)
  | setState (payload : List Byte)
  | getStatus (payload : List Byte)
  | sensorData (payload : List Byte)
  | recordControl (payload : List Byte)
  | cameraControl (payload : List Byte)
  | setGaze (payload : List Byte)
  | error (payload : List Byte)
deriving DecidableEq, Repr

end Sys2Proof
end

