-- ==== Sys2Proof/WellFormed.lean ====
section
/-! DEFINITION. Which instructions a frame can carry: `LENGTH` from 0 to 1024 (30_encoding.md R93, R106). -/

namespace Sys2Proof

namespace Instr

/-- The command a constructor stands for (R95). -/
def command : Instr → Command
  | .heartbeat _ => .heartbeat
  | .setExpression _ => .setExpression
  | .setServo _ => .setServo
  | .playAudio _ => .playAudio
  | .recordAudio _ => .recordAudio
  | .sendImage _ => .sendImage
  | .setState _ => .setState
  | .getStatus _ => .getStatus
  | .sensorData _ => .sensorData
  | .recordControl _ => .recordControl
  | .cameraControl _ => .cameraControl
  | .setGaze _ => .setGaze
  | .error _ => .error

/-- The payload of an instruction (R94). -/
def payload : Instr → List Byte
  | .heartbeat p => p
  | .setExpression p => p
  | .setServo p => p
  | .playAudio p => p
  | .recordAudio p => p
  | .sendImage p => p
  | .setState p => p
  | .getStatus p => p
  | .sensorData p => p
  | .recordControl p => p
  | .cameraControl p => p
  | .setGaze p => p
  | .error p => p

/-- The instruction of a command and a payload. -/
def ofCommand : Command → List Byte → Instr
  | .heartbeat, p => .heartbeat p
  | .setExpression, p => .setExpression p
  | .setServo, p => .setServo p
  | .playAudio, p => .playAudio p
  | .recordAudio, p => .recordAudio p
  | .sendImage, p => .sendImage p
  | .setState, p => .setState p
  | .getStatus, p => .getStatus p
  | .sensorData, p => .sensorData p
  | .recordControl, p => .recordControl p
  | .cameraControl, p => .cameraControl p
  | .setGaze, p => .setGaze p
  | .error, p => .error p

/-- An instruction is well formed when its payload fits a frame: at most `MAX_PAYLOAD` bytes (R93). Nothing else is
required of any command's payload (R106). -/
def wellFormed (i : Instr) : Bool := decide (i.payload.length ≤ Config.maxPayload)

end Instr

end Sys2Proof
end

