-- ==== Sys2Proof/Decode.lean ====
section
/-! DEFINITION. From the bytes of one frame to an instruction, or a rejection by name, and back (30_encoding.md R90, R96,
R107, R109). The streaming parser that finds frames in a byte stream is `FEED` (Machine/Transport.lean); this decoder reads
one frame that starts at the first byte. -/

namespace Sys2Proof

open Sys2Proof.Machine

/-- Why bytes are not an instruction (R107). -/
inductive DecodeError where
  /-- Fewer bytes than the frame has (R96). -/
  | truncated
  /-- The first byte is not `HEAD` (R107 (a)). -/
  | badHead (b : Byte)
  /-- `LENGTH` above 1024 (R107 (b)). -/
  | oversize (length : Half)
  /-- The received checksum is not the computed one: an invalid frame (R107 (c)). -/
  | checksumMismatch (received computed : Byte)
  /-- A valid frame whose command is outside `CMD_SET`: the reserved space (R107 (d)). -/
  | reservedCommand (command : Byte)
deriving DecidableEq, Repr

/-- What the decoder answers: an instruction with the bytes after its frame, or a rejection. -/
inductive Decoded where
  | ok (i : Instr) (rest : List Byte)
  | bad (e : DecodeError)
deriving DecidableEq, Repr

/-- The instruction of a valid frame's command byte and payload, none in the reserved space (R95, R107 (d)). -/
def instrOf (cfg : Config) (command : Byte) (payload : List Byte) : Option Instr :=
  (cfg.commandOf command).map (fun c => Instr.ofCommand c payload)

/-- The checksum and the command of a frame whose extent is known (R94, R95). -/
def decodeChecked (cfg : Config) (command : Byte) (length : Half) (payload : List Byte) (received : Byte)
    (rest : List Byte) : Decoded :=
  let computed := crc8 cfg (covered command length payload)
  if received = computed then
    match instrOf cfg command payload with
    | some i => .ok i rest
    | none => .bad (.reservedCommand command)
  else .bad (.checksumMismatch received computed)

/-- The payload and the checksum byte of a frame whose header is read: the frame ends at offset 4 + `LENGTH` (R96). -/
def decodeBody (cfg : Config) (command : Byte) (length : Half) (bs : List Byte) : Decoded :=
  if Config.maxPayload < length.toNat then .bad (.oversize length)
  else
    match bs.drop length.toNat with
    | [] => .bad .truncated
    | k :: rest => decodeChecked cfg command length (bs.take length.toNat) k rest

/-- The decoder, total on any bytes (R90, R107). -/
def decode (cfg : Config) : List Byte → Decoded
  | [] => .bad .truncated
  | h :: bs =>
    if h = Config.head then
      match bs with
      | c :: lo :: hi :: body => decodeBody cfg c (le16 lo hi) body
      | _ => .bad .truncated
    else .bad (.badHead h)

/-- The encoder: the bytes of an instruction's frame, from the frame format of R90 and the command map of R95. -/
def encode (cfg : Config) (i : Instr) : List Byte := frameBytes cfg (cfg.cmd i.command) i.payload

/-- The frame whose first two bytes are a word of spec/opcode_table.json: a 16-bit value, `HEAD` in bits 15 to 8 and
`COMMAND` in bits 7 to 0 (R109), every other operand bit 0 (`LENGTH` 0, no payload). `CHECKSUM` is no operand and the table
gives it no value of its own: it is the `crc8` of the bytes before it (log 9). -/
def tableWordBytes (cfg : Config) (nbits w : Nat) : List Byte :=
  let v := w % 2 ^ nbits
  let bs : List Byte := [BitVec.ofNat 8 (v / 256), BitVec.ofNat 8 v, 0, 0]
  bs ++ [crc8 cfg bs]

/-- The instruction the decoder reads from a word of the opcode table, under the default numbering that the table is
written in (R109). -/
def decodeTableWord (nbits w : Nat) : Option Instr :=
  match decode Config.default (tableWordBytes Config.default nbits w) with
  | .ok i _ => some i
  | .bad _ => none

end Sys2Proof
end

