-- ==== Sys2Proof/Machine/Memory.lean ====
section
/-! DEFINITION. The storage spaces with an index (20_memory.md R60): `RXBUF` as a list of (address, byte) pairs in one
canonical form, and `DTAB` as its 256 entries. `OQ` is a plain list (R63). -/

namespace Sys2Proof.Machine

/-- A byte space: listed bytes by address. For `RXBUF` the addresses are the payload indices 0 to 1023 (R61). -/
abbrev Memory := List Host.Cell

namespace Memory

/-- What a byte that nothing has written reads as: 0, a DESIGN CHOICE (log 7). The spec leaves the content of `RXBUF` after
reset unspecified and shows that it is never observed (10_state.md R26, R29; D30). -/
def unlisted (_ : Nat) : Byte := 0

/-- The byte at an address. -/
def read : Memory → Nat → Byte
  | [], a => unlisted a
  | (k, v) :: m, a => if k = a then v else read m a

/-- The memory without any cell of an address. -/
def erase (m : Memory) (a : Nat) : Memory := m.filter (fun c => c.1 ≠ a)

/-- A cell put before the first cell of a higher address. -/
def insert : Memory → Nat → Byte → Memory
  | [], a, v => [(a, v)]
  | (k, w) :: m, a, v => if a < k then (a, v) :: (k, w) :: m else (k, w) :: insert m a v

/-- A byte stored at an address; storing what an unlisted address reads as removes the cell. -/
def write (m : Memory) (a : Nat) (v : Byte) : Memory :=
  if v = unlisted a then erase m a else insert (erase m a) a v

/-- `n` bytes from index 0: `RXBUF[0 .. n-1]` (00_scope.md R12 `MemRead`). -/
def readFirst (m : Memory) (n : Nat) : List Byte := (List.range n).map m.read

/-- The canonical form: addresses strictly rising, no cell equal to what an unlisted address reads as. -/
abbrev wf (m : Memory) : Prop :=
  m.Pairwise (fun x y => x.1 < y.1) ∧ ∀ c ∈ m, c.2 ≠ unlisted c.1

end Memory

/-- A handler identity (10_state.md R34): the one handler inside the block, or an external route. -/
inductive Handler where
  | setState
  | ext (route : Route)
deriving DecidableEq, Repr

/-- An entry of the Dispatch Table (R33). -/
inductive DtabEntry where
  | unbound
  | bound (h : Handler)
deriving DecidableEq, Repr

/-- The handler that an argument of `BIND` names at a port of `ROUTE_W` wires: of a number that does not fit, the low bits
(DESIGN CHOICE, log 5; R34 has no such route). -/
def Handler.atPort (routeW : Nat) : Handler → Handler
  | .setState => .setState
  | .ext r => .ext (r % 2 ^ routeW)

/-- The hardware encoding of a handler, `ROUTE_W` + 1 bits: 9 by default (30_encoding.md R108). -/
def Handler.bits (routeW : Nat) : Handler → BitVec (1 + routeW)
  | .setState => 1#1 ++ 0#routeW
  | .ext r => 0#1 ++ BitVec.ofNat routeW r

/-- The hardware entry, `ROUTE_W` + 2 bits, 10 by default: `bound` on top, then `internal`, then `route` (R33). For an unbound
entry the spec says only that the other bits are ignored; that they are written as 0 here is the model's choice (DESIGN CHOICE,
log 25). -/
def DtabEntry.bits (routeW : Nat) : DtabEntry → BitVec (1 + (1 + routeW))
  | .unbound => 0
  | .bound h => 1#1 ++ h.bits routeW

/-- The entry that hardware bits hold; with `bound` = 0 the other bits are ignored (R33). The spec gives an internal entry
route 0 and says nothing of one with other route bits; that they are not looked at is the model's choice (DESIGN CHOICE,
log 25). -/
def DtabEntry.ofBits (routeW : Nat) (b : BitVec (1 + (1 + routeW))) : DtabEntry :=
  if b.getLsbD (1 + routeW) then
    if b.getLsbD routeW then .bound .setState else .bound (.ext (b.extractLsb' 0 routeW).toNat)
  else .unbound

/-- `DTAB`: 256 entries, indexed by the whole command byte (R33, 20_memory.md R62). -/
abbrev Dtab := Vector DtabEntry 256

namespace Dtab

/-- The table after reset: every entry `UNBOUND` (R33). -/
def empty : Dtab := Vector.replicate 256 .unbound

/-- `DTAB[c]`. -/
def get (t : Dtab) (c : Byte) : DtabEntry := t[c.toNat]'c.isLt

/-- `DTAB[c] <- e`. -/
def put (t : Dtab) (c : Byte) (e : DtabEntry) : Dtab := t.set c.toNat e c.isLt

end Dtab

end Sys2Proof.Machine
end

