-- ==== Sys2Proof/Machine/State.lean ====
section
/-! DEFINITION. The state of the block (10_state.md R22), the output streams, the model's input ports, the reasons a step
can stop, and the state after reset (70_reset_and_hazards.md R300). -/

namespace Sys2Proof.Machine

/-- A frame record of the Outbound Queue (10_state.md R31). `head` is constant and not stored (R23). -/
structure FrameRec where
  command : Byte
  length : Half
  payload : List Byte
  checksum : Byte
deriving DecidableEq, Repr

/-- A completed frame as `FEED` returns it (40_frame_transport.md R126). -/
structure RxFrame where
  valid : Bool
  command : Byte
  length : Half
  payload : List Byte
  received : Byte
  computed : Byte
deriving DecidableEq, Repr

/-- A handler invocation on `DISP` (10_state.md R47). -/
structure DispEvent where
  route : Route
  command : Byte
  length : Half
  payload : List Byte
deriving DecidableEq, Repr

/-- The eight diagnostic events with their information fields (60_exceptions.md R261), a closed enumeration. -/
inductive Diag where
  | checksumMismatch (command : Byte) (length : Half) (received computed : Byte)
  | oversizeAbandon (command : Byte) (length : Half)
  | unhandledCommand (command : Byte) (length : Half)
  | queueFull (command : Byte)
  /-- `none` is `has_value` = 0 (log 17). -/
  | invalidState (value : Option Byte)
  | badBind (command : Byte)
  | badBattery (value : Byte)
  /-- `n` is the number of payload bytes asked for, of no stated width (log 18). -/
  | sendOversize (command : Byte) (n : Nat)
deriving DecidableEq, Repr

/-- The result of `SEND` (40_frame_transport.md R135). -/
inductive SendResult where
  | accepted
  | rejected
deriving DecidableEq, Repr

/-- What an external handler may do in its reply (41_command_dispatcher.md R166). -/
inductive HandlerOp where
  | send (command : Byte) (payload : List Byte)
  | setBatteryLevel (v : Byte)
  | setServoAngles (h v : Half)
deriving DecidableEq, Repr

/-- The host operations that may fall between any two atomic operations, inside a tick too (43_tick_loop.md R245). -/
inductive HostOp where
  | send (command : Byte) (payload : List Byte)
  | setBatteryLevel (v : Byte)
  | setServoAngles (h v : Half)
  | setRunning (b : Bool)
  | bind (command : Byte) (h : Handler)
deriving DecidableEq, Repr

/-- One `RX_BYTE`: the byte, the value of `now_ms` sampled at its start (43_tick_loop.md R244), and the reply the
collaborator gives if this byte leads to a call of it (41_command_dispatcher.md R166). -/
structure RxSample where
  byte : Byte
  now : Time
  reply : List HandlerOp
deriving DecidableEq, Repr

/-- What happens during phase 1 of a tick: an input byte, or a host operation between two atomic operations (R240, R245). -/
inductive TickItem where
  | rx (x : RxSample)
  | host (op : HostOp)
deriving DecidableEq, Repr

/-- An operation the surroundings apply to the block (30_encoding.md R110, 10_state.md R50). -/
inductive Op where
  /-- `RESET` (R300). -/
  | reset
  /-- `INIT()` at a value of `now` (R215). -/
  | init (now : Time)
  /-- A host operation between ticks or between phases (R245). -/
  | host (op : HostOp)
  /-- `RX_BYTE` as a phase of its own (R50 "`TICK` (or its phases)", R242). -/
  | rxByte (x : RxSample)
  /-- `FLUSH()` as a phase of its own (R140). -/
  | flush
  /-- `TIMER_CHECK()` as a phase of its own, at a value of `now` (R210). -/
  | timerCheck (now : Time)
  /-- `TICK(bytes)` (R240): what is still to do of phase 1, the host operations between `FLUSH` and `TIMER_CHECK`, and
  `now` at the `TIMER_CHECK`. -/
  | tick (ingest : List TickItem) (beforeTimer : List HostOp) (now : Time)
deriving DecidableEq, Repr

/-- The reasons a step stops with a fault: none. "No operation of the block can fault, trap, hang or deadlock"
(43_tick_loop.md R246); an error raises a diagnostic and the block goes on (log 19). -/
inductive Fault
deriving DecidableEq, Repr

/-- The reasons a step refuses. -/
inductive Refusal where
  /-- An instruction without a meaning in the model. Raised by an arm of Dispatch.lean; no arm of this model raises it. Safe:
  the run stops. -/
  | notModelled (mnemonic : String)
  /-- The configuration breaks a constraint of 92_eei_decisions.md section 6 ("is `refuse`d", 93_implementation_defined.md
  U10). Raised by `step` only. Safe: the run stops before anything happens. -/
  | badConfiguration
deriving DecidableEq, Repr

/-- The state: the registers and stores of 10_state.md R22, the output streams of R46 to R49, and the model's own
configuration and input ports (log 1, 2, 3, 4, 5). -/
structure State where
  /-- The open parameters, fixed for a run (00_scope.md R6). -/
  cfg : Config
  /-- `in_frame` (R28). -/
  inFrame : Bool
  /-- `pos` (R27). -/
  pos : Cursor
  /-- `rx_command` (R24). -/
  rxCommand : Byte
  /-- `rx_length` (R25). -/
  rxLength : Half
  /-- `RXBUF` (R26). -/
  rxbuf : Memory
  /-- `OQ`, head first (R30). -/
  oq : List FrameRec
  /-- `DTAB` (R33). -/
  dtab : Dtab
  /-- `current_state` (R35): `STATE_W` bits that hold an encoding, which is one byte (30_encoding.md R104, log 5). -/
  currentState : Byte
  /-- `previous_state` (R36), as `current_state`. -/
  previousState : Byte
  /-- `state_enter_timestamp` (R37): a count below 2^`TIME_W`. -/
  stateEnterTimestamp : Time
  /-- `battery_level` (R38). -/
  batteryLevel : Byte
  /-- `current_expression_id` (R39). -/
  currentExpressionId : Byte
  /-- `servo_h_angle` (R40). -/
  servoHAngle : Half
  /-- `servo_v_angle` (R41). -/
  servoVAngle : Half
  /-- `running` (R42). -/
  running : Bool
  /-- Input port: `now_ms` as last sampled (00_scope.md R16), a count below 2^`TIME_W`. -/
  nowMs : Time
  /-- Input port: the collaborator's reply for the operation in hand (R47). -/
  reply : List HandlerOp
  /-- Input port: the operations still to be applied, next first (R50, R51). -/
  pending : List Op
  /-- Output stream `TX` (R46). -/
  tx : List Byte
  /-- Output stream `DISP` (R47). -/
  disp : List DispEvent
  /-- Output stream `EXPR` (R48). -/
  expr : List Byte
  /-- Output stream `DIAG` (R49). -/
  diag : List Diag
  /-- Output: the results of `SEND` returned to the host and to handlers (R264). -/
  sendResults : List SendResult
deriving DecidableEq, Repr

namespace State

/-- The block after reset under a configuration: the reset column of 10_state.md R22, with nothing emitted and nothing
scheduled. The receive registers, unspecified there, are 0 (log 7). -/
def resetWith (cfg : Config) : State where
  cfg := cfg
  inFrame := false
  pos := 0
  rxCommand := 0
  rxLength := 0
  rxbuf := []
  oq := []
  dtab := Dtab.empty
  currentState := cfg.stIdle
  previousState := cfg.stIdle
  stateEnterTimestamp := 0
  batteryLevel := cfg.batteryReset
  currentExpressionId := 0x00
  servoHAngle := cfg.servoHReset
  servoVAngle := cfg.servoVReset
  running := false
  nowMs := 0
  reply := []
  pending := []
  tx := []
  disp := []
  expr := []
  diag := []
  sendResults := []

/-- The machine right after reset, under the default configuration of 00_scope.md R6. -/
def reset : State := resetWith Config.default

end State

end Sys2Proof.Machine
end

