-- ==== Sys2Proof/Machine/Flags.lean ====
section
/-! DEFINITION. The derived one-bit conditions of the block and the code of a diagnostic. The block has no condition codes;
its one-bit state is `in_frame` and `running`, and these conditions are functions of the state (10_state.md R43). -/

namespace Sys2Proof.Machine

namespace State

/-- `oq_count` (R30). -/
def oqCount (s : State) : Nat := s.oq.length

/-- `oq_full` (R30). -/
def oqFull (s : State) : Bool := decide (s.oqCount = s.cfg.qDepth)

/-- `oq_empty` (R30). -/
def oqEmpty (s : State) : Bool := decide (s.oqCount = 0)

/-- `DTAB[c].bound` (R33, R43). -/
def isBound (s : State) (c : Byte) : Bool := decide (s.dtab.get c ≠ .unbound)

end State

/-- The code of a diagnostic (60_exceptions.md R261). -/
def Diag.code : Diag → Byte
  | .checksumMismatch _ _ _ _ => 0x01
  | .oversizeAbandon _ _ => 0x02
  | .unhandledCommand _ _ => 0x03
  | .queueFull _ => 0x04
  | .invalidState _ => 0x05
  | .badBind _ => 0x06
  | .badBattery _ => 0x07
  | .sendOversize _ _ => 0x08

end Sys2Proof.Machine
end

