-- ==== Sys2Proof/Machine/Ops.lean ====
section
/-! DEFINITION. The named updates of the state that every operation is built from. Raising a diagnostic is the one "taking
an exception" of the block (60_exceptions.md R272); there is no return from one (R273). -/

namespace Sys2Proof.Machine

namespace State

/-- `raise DIAG_X(info)`: the event is appended to `DIAG` and the operation goes on. No state is saved, no mode changes,
nothing is masked, no control is transferred (00_scope.md R13, 60_exceptions.md R272). -/
def raise (s : State) (d : Diag) : State := { s with diag := s.diag ++ [d] }

/-- `emit TX` of a sequence of bytes (R15, R46). -/
def emitTx (s : State) (bs : List Byte) : State := { s with tx := s.tx ++ bs }

/-- `emit EXPR` (R48). -/
def emitExpr (s : State) (e : Byte) : State := { s with expr := s.expr ++ [e] }

/-- `emit DISP` (R47). -/
def emitDisp (s : State) (e : DispEvent) : State := { s with disp := s.disp ++ [e] }

/-- The result of `SEND` handed back to a caller outside the block (R264, log 4). -/
def answerSend (s : State) (r : SendResult) : State := { s with sendResults := s.sendResults ++ [r] }

/-- The parser goes idle: `in_frame <- 0; pos <- 0` (40_frame_transport.md R126). -/
def toIdle (s : State) : State := { s with inFrame := false, pos := 0 }

/-- The parser is in a frame at a position (R126). -/
def atPos (s : State) (k : Nat) : State := { s with inFrame := true, pos := BitVec.ofNat 11 k }

/-- `rx_command <- b` (R24). -/
def withCommand (s : State) (b : Byte) : State := { s with rxCommand := b }

/-- `rx_length <- n` (R25). -/
def withLength (s : State) (n : Half) : State := { s with rxLength := n }

/-- `RXBUF[i] <- b` (R26). -/
def storeRx (s : State) (i : Nat) (b : Byte) : State := { s with rxbuf := s.rxbuf.write i b }

/-- `DTAB[c] <- e` (R33). -/
def setEntry (s : State) (c : Byte) (e : DtabEntry) : State := { s with dtab := s.dtab.put c e }

/-- `OQ <- OQ ++ [rec]` (R30). -/
def enqueue (s : State) (r : FrameRec) : State := { s with oq := s.oq ++ [r] }

/-- `OQ <- []` (R140). -/
def emptyQueue (s : State) : State := { s with oq := [] }

/-- The time input is sampled (43_tick_loop.md R244): `TIME_W` bits of the count, which wraps (60_exceptions.md R285). -/
def sampleNow (s : State) (t : Time) : State := { s with nowMs := t % 2 ^ s.cfg.timeW }

/-- The collaborator's reply for the operation in hand is at the port (R47). -/
def withReply (s : State) (ops : List HandlerOp) : State := { s with reply := ops }

/-- The operations still to be applied. -/
def withPending (s : State) (ops : List Op) : State := { s with pending := ops }

/-- `battery_level <- v` (R38). -/
def withBattery (s : State) (v : Byte) : State := { s with batteryLevel := v }

/-- `servo_h_angle <- h; servo_v_angle <- v` (R40, R41). -/
def withServos (s : State) (h v : Half) : State := { s with servoHAngle := h, servoVAngle := v }

/-- `running <- b` (R42). -/
def withRunning (s : State) (b : Bool) : State := { s with running := b }

/-- The four registers a state-changing transition writes together (42_behavior_controller.md R200, 20_memory.md R71). -/
def enterState (s : State) (code expression : Byte) : State :=
  { s with previousState := s.currentState, currentState := code, stateEnterTimestamp := s.nowMs,
           currentExpressionId := expression }

end State

/-- The frame record that `SEND` builds, with its checksum (40_frame_transport.md R135, 10_state.md R31). -/
def mkRecord (cfg : Config) (command : Byte) (payload : List Byte) : FrameRec :=
  { command := command, length := lengthOf payload, payload := payload,
    checksum := crc8 cfg (covered command (lengthOf payload) payload) }

/-- `SERIALIZE(rec)`: the bytes of a record on the wire (R140). The serializer checks nothing (R141). -/
def serialize (r : FrameRec) : List Byte := covered r.command r.length r.payload ++ [r.checksum]

end Sys2Proof.Machine
end

