-- ==== Sys2Proof/Machine/Transport.lean ====
section
/-! DEFINITION. The Frame Transport: `FEED`, `SEND`, `FLUSH` (40_frame_transport.md R126 to R142). -/

namespace Sys2Proof.Machine

/-- The end of an arm that consumed the byte at offset `k` without completing the frame: `pos <- k + 1`, and the defensive
bound (R126, R130). -/
def feedAdvance (k : Nat) (s : State) : State :=
  if k + 1 = Config.maxFrame then
    (s.raise (.oversizeAbandon s.rxCommand s.rxLength)).toIdle
  else s.atPos (k + 1)

/-- The payload arm: the byte at offset `k` is stored at index `k - 4` when that is inside the buffer (R129). -/
def feedPayload (k : Nat) (b : Byte) (s : State) : State :=
  if k - Config.payloadOffset < Config.maxPayload then s.storeRx (k - Config.payloadOffset) b else s

/-- The completed frame of the checksum arm (R131). -/
def completedFrame (b : Byte) (s : State) : RxFrame :=
  let payload := s.rxbuf.readFirst s.rxLength.toNat
  let computed := crc8 s.cfg (covered s.rxCommand s.rxLength payload)
  { valid := decide (computed = b), command := s.rxCommand, length := s.rxLength, payload := payload,
    received := b, computed := computed }

/-- `FEED` inside a frame: the header arms (R128), the payload arm (R129), the checksum arm (R131). -/
def feedInFrame (b : Byte) (s : State) : State × Option RxFrame :=
  let k := s.pos.toNat
  if k = 1 then (feedAdvance k (s.withCommand b), none)
  else if k = 2 then (feedAdvance k (s.withLength (le16 b (hi8 s.rxLength))), none)
  else if k = 3 then (feedAdvance k (s.withLength (le16 (lo8 s.rxLength) b)), none)
  else if k < Config.payloadOffset + s.rxLength.toNat then (feedAdvance k (feedPayload k b s), none)
  else (s.toIdle, some (completedFrame b s))

/-- `FEED(b)` (R126). While idle only `HEAD` does anything (R127). -/
def feed (b : Byte) (s : State) : State × Option RxFrame :=
  if s.inFrame then feedInFrame b s
  else if b = Config.head then (s.atPos 1, none)
  else (s, none)

/-- `FEED` of a sequence of bytes, with the frames it returns (20_memory.md R79). -/
def feedAll : List Byte → State → State × List RxFrame
  | [], s => (s, [])
  | b :: bs, s =>
    let r := feed b s
    let q := feedAll bs r.1
    (q.1, r.2.toList ++ q.2)

/-- `SEND(command, payload)` (R135). The size test precedes the capacity test (R136). -/
def send (command : Byte) (payload : List Byte) (s : State) : State × SendResult :=
  if Config.maxPayload < payload.length then (s.raise (.sendOversize command payload.length), .rejected)
  else if s.oqFull then (s, .rejected)
  else (s.enqueue (mkRecord s.cfg command payload), .accepted)

/-- `SEND` called from outside the block, by the host or a handler: the result goes back to the caller (R264, log 4). -/
def sendExternal (command : Byte) (payload : List Byte) (s : State) : State :=
  let r := send command payload s
  r.1.answerSend r.2

/-- `FLUSH()`: every record, head first, is serialized to `TX` and removed (R140). The sink takes every byte (R142, D21,
log 13). -/
def flush (s : State) : State := (s.emitTx (s.oq.flatMap serialize)).emptyQueue

end Sys2Proof.Machine
end

