-- ==== Sys2Proof/Machine/Controller.lean ====
section
/-! DEFINITION. The Behavior Controller: `TRANSITION`, the set-state handler, the elapsed-timer comparator and the setters
(42_behavior_controller.md R200 to R214). -/

namespace Sys2Proof.Machine

/-- `STATUS_PAYLOAD()`, the status-frame builder (R203). -/
def statusPayload (s : State) : List Byte :=
  statusLayout s.currentState s.batteryLevel s.currentExpressionId s.servoHAngle s.servoVAngle

/-- The status frame of a transition is enqueued; a full queue drops it and raises `DIAG_QUEUE_FULL` (R200, R202). -/
def sendStatus (s : State) : State :=
  match send s.cfg.statusCmd (statusPayload s) s with
  | (s', .accepted) => s'
  | (s', .rejected) => s'.raise (.queueFull s.cfg.statusCmd)

/-- `TRANSITION(s)` (R200). Its argument is a real state, as R200 and R204 require; a self-transition changes nothing (R217).
`now` is the value sampled by the operation that calls it (43_tick_loop.md R244). -/
def transition (r : RealState) (s : State) : State :=
  if s.cfg.enc r = s.currentState then s
  else sendStatus ((s.enterState (s.cfg.enc r) (exprOf r)).emitExpr (exprOf r))

/-- `H_SET_STATE(payload, length)` (R205). Only byte 0 is read (R206); an empty payload, `IDLE`'s encoding and every byte
outside the enumeration are rejected. -/
def hSetState (payload : List Byte) (s : State) : State :=
  match payload with
  | [] => s.raise (.invalidState none)
  | v :: _ =>
    match s.cfg.realOf v with
    | none => s.raise (.invalidState (some v))
    | some r => transition r s

/-- The elapsed time: `now` minus the timestamp modulo 2^`TIME_W`, 2^32 by default (R211; other widths log 5). -/
def elapsed (s : State) : Time := (((s.nowMs : Int) - (s.stateEnterTimestamp : Int)) % ((2 ^ s.cfg.timeW : Nat) : Int)).toNat

/-- `TIMER_CHECK()` (R210). The comparison is "greater than or equal" (90_conflicts.md C3). -/
def timerCheck (s : State) : State :=
  if s.running = true ∧ s.currentState = s.cfg.stWake ∧ Config.wakeTimeoutMs ≤ elapsed s then
    transition .listen s
  else s

/-- `SET_BATTERY_LEVEL(v)` (R212). -/
def setBatteryLevel (v : Byte) (s : State) : State :=
  if Config.batteryMax < v.toNat then s.raise (.badBattery v) else s.withBattery v

/-- `SET_SERVO_ANGLES(h, v)` (R213). -/
def setServoAngles (h v : Half) (s : State) : State := s.withServos h v

/-- `SET_RUNNING(b)` (R214). -/
def setRunning (b : Bool) (s : State) : State := s.withRunning b

end Sys2Proof.Machine
end

