-- ==== Sys2Proof/Machine/Dispatcher.lean ====
section
/-! DEFINITION. The Command Dispatcher: `BIND`, the reply of an external handler, `DISPATCH`
(41_command_dispatcher.md R160 to R166). -/

namespace Sys2Proof.Machine

/-- `BIND(c, h)` (R160). The closed-set test precedes the `H_SET_STATE` test (R161, 60_exceptions.md R271). -/
def bind (c : Byte) (h : Handler) (s : State) : State :=
  if s.cfg.inCmdSet c = false then s.raise (.badBind c)
  else if h = .setState ∧ c ≠ Config.cmdSetState then s.raise (.badBind c)
  else s.setEntry c (.bound (h.atPort s.cfg.routeW))

/-- One operation of a handler's reply (R166). -/
def performHandlerOp (op : HandlerOp) (s : State) : State :=
  match op with
  | .send c p => sendExternal c p s
  | .setBatteryLevel v => setBatteryLevel v s
  | .setServoAngles h v => setServoAngles h v s

/-- A reply: its operations in list order; one that fails does not abort the rest (R166, 60_exceptions.md R273). -/
def performReply : List HandlerOp → State → State
  | [], s => s
  | op :: ops, s => performReply ops (performHandlerOp op s)

/-- `DISPATCH(f)` on a valid frame's command and payload (R163): unbound, it is reported and discarded (R165); bound to the
internal handler, that runs; bound to a route, one `DISP` event is emitted and the reply is performed. -/
def dispatch (command : Byte) (payload : List Byte) (s : State) : State :=
  match s.dtab.get command with
  | .unbound => s.raise (.unhandledCommand command (lengthOf payload))
  | .bound .setState => hSetState payload s
  | .bound (.ext r) => performReply s.reply (s.emitDisp ⟨r, command, lengthOf payload, payload⟩)

end Sys2Proof.Machine
end

