-- ==== Sys2Proof/Machine/Commands.lean ====
section
/-! DEFINITION. The meanings of the thirteen wire commands (41_command_dispatcher.md R170 to R182): each valid frame is given
to `DISPATCH` under its own identifier, and what is bound there decides. -/

namespace Sys2Proof.Machine

/-- `HEARTBEAT` (R170): the heartbeat layout of R101 is not checked and the block answers nothing of its own. -/
def execHeartbeat (payload : List Byte) (s : State) : Host.Outcome State Fault Refusal :=
  .next (dispatch (s.cfg.cmd .heartbeat) payload s)

/-- `SET_EXPRESSION` (R171): `current_expression_id` is not written by it. -/
def execSetExpression (payload : List Byte) (s : State) : Host.Outcome State Fault Refusal :=
  .next (dispatch (s.cfg.cmd .setExpression) payload s)

/-- `SET_SERVO` (R172): the servo registers change only by the handler's reply. -/
def execSetServo (payload : List Byte) (s : State) : Host.Outcome State Fault Refusal :=
  .next (dispatch (s.cfg.cmd .setServo) payload s)

/-- `PLAY_AUDIO` (R173): no block state. -/
def execPlayAudio (payload : List Byte) (s : State) : Host.Outcome State Fault Refusal :=
  .next (dispatch (s.cfg.cmd .playAudio) payload s)

/-- `RECORD_AUDIO` (R174): no block state. -/
def execRecordAudio (payload : List Byte) (s : State) : Host.Outcome State Fault Refusal :=
  .next (dispatch (s.cfg.cmd .recordAudio) payload s)

/-- `SEND_IMAGE` (R175): no block state. -/
def execSendImage (payload : List Byte) (s : State) : Host.Outcome State Fault Refusal :=
  .next (dispatch (s.cfg.cmd .sendImage) payload s)

/-- `SET_STATE` (R176): bound to `H_SET_STATE` (as `INIT` leaves it) it performs the transition or raises `DIAG_INVALID_STATE` (R205). -/
def execSetState (payload : List Byte) (s : State) : Host.Outcome State Fault Refusal :=
  .next (dispatch (s.cfg.cmd .setState) payload s)

/-- `GET_STATUS` (R177): the block has no handler of its own for it (D25). -/
def execGetStatus (payload : List Byte) (s : State) : Host.Outcome State Fault Refusal :=
  .next (dispatch (s.cfg.cmd .getStatus) payload s)

/-- `SENSOR_DATA` (R178): the layout of R102 is not interpreted. -/
def execSensorData (payload : List Byte) (s : State) : Host.Outcome State Fault Refusal :=
  .next (dispatch (s.cfg.cmd .sensorData) payload s)

/-- `RECORD_CONTROL` (R179): no block state. -/
def execRecordControl (payload : List Byte) (s : State) : Host.Outcome State Fault Refusal :=
  .next (dispatch (s.cfg.cmd .recordControl) payload s)

/-- `CAMERA_CONTROL` (R180): no block state. -/
def execCameraControl (payload : List Byte) (s : State) : Host.Outcome State Fault Refusal :=
  .next (dispatch (s.cfg.cmd .cameraControl) payload s)

/-- `SET_GAZE` (R181): no block state. -/
def execSetGaze (payload : List Byte) (s : State) : Host.Outcome State Fault Refusal :=
  .next (dispatch (s.cfg.cmd .setGaze) payload s)

/-- `ERROR` (R182): the block never originates one. -/
def execError (payload : List Byte) (s : State) : Host.Outcome State Fault Refusal :=
  .next (dispatch (s.cfg.cmd .error) payload s)

end Sys2Proof.Machine
end

