-- ==== Sys2Proof/Machine/Dispatch.lean ====
section
/-! DEFINITION. The effect of an instruction: one arm per constructor of Instr. -/

namespace Sys2Proof.Machine

def exec (i : Instr) (s : State) : Host.Outcome State Fault Refusal :=
  match i with
  | .heartbeat payload => Sys2Proof.Machine.execHeartbeat payload s
  | .setExpression payload => Sys2Proof.Machine.execSetExpression payload s
  | .setServo payload => Sys2Proof.Machine.execSetServo payload s
  | .playAudio payload => Sys2Proof.Machine.execPlayAudio payload s
  | .recordAudio payload => Sys2Proof.Machine.execRecordAudio payload s
  | .sendImage payload => Sys2Proof.Machine.execSendImage payload s
  | .setState payload => Sys2Proof.Machine.execSetState payload s
  | .getStatus payload => Sys2Proof.Machine.execGetStatus payload s
  | .sensorData payload => Sys2Proof.Machine.execSensorData payload s
  | .recordControl payload => Sys2Proof.Machine.execRecordControl payload s
  | .cameraControl payload => Sys2Proof.Machine.execCameraControl payload s
  | .setGaze payload => Sys2Proof.Machine.execSetGaze payload s
  | .error payload => Sys2Proof.Machine.execError payload s

end Sys2Proof.Machine
end

