-- ==== Sys2Proof/Machine/Sequencer.lean ====
section
/-! DEFINITION. The tick sequencer and the host port: `RX_BYTE`, `INIT`, `RESET`, the host operations, and one atomic
operation of a schedule (43_tick_loop.md R240 to R248, 42_behavior_controller.md R215, 70_reset_and_hazards.md R300). -/

namespace Sys2Proof.Machine

/-- A valid frame is dispatched (R242). A command of the closed set is an instruction and has its meaning; a command of the
reserved space goes to `DISPATCH` as it is (R163; log 21). -/
def deliver (f : RxFrame) (s : State) : Host.Outcome State Fault Refusal :=
  match instrOf s.cfg f.command f.payload with
  | some i => exec i s
  | none => .next (dispatch f.command f.payload s)

/-- `RX_BYTE(b)`: one byte through the parser and, if it completes a valid frame, through the Dispatcher; an invalid frame is
reported and discarded (R242). `now` is sampled once for all of it (R244). -/
def rxByte (x : RxSample) (s : State) : Host.Outcome State Fault Refusal :=
  match feed x.byte ((s.sampleNow x.now).withReply x.reply) with
  | (s', none) => .next s'
  | (s', some f) =>
    if f.valid then deliver f s'
    else .next (s'.raise (.checksumMismatch f.command f.length f.received f.computed))

/-- A host operation of R245. -/
def performHostOp (op : HostOp) (s : State) : State :=
  match op with
  | .send c p => sendExternal c p s
  | .setBatteryLevel v => setBatteryLevel v s
  | .setServoAngles h v => setServoAngles h v s
  | .setRunning b => setRunning b s
  | .bind c h => bind c h s

/-- `INIT()` (42_behavior_controller.md R215). -/
def initOp (s : State) : State :=
  setRunning true (transition .sleep (bind Config.cmdSetState .setState s))

/-- `RESET` (R300): every piece of state of 10_state.md R22 at its reset value; the streams are histories and keep what was
emitted, and the time input is the platform's (R301). -/
def resetOp (s : State) : State :=
  { State.resetWith s.cfg with
    nowMs := s.nowMs, reply := s.reply, pending := s.pending,
    tx := s.tx, disp := s.disp, expr := s.expr, diag := s.diag, sendResults := s.sendResults }

/-- An item of phase 1 as an operation of its own (R240, R245). -/
def TickItem.toOp : TickItem → Op
  | .rx x => .rxByte x
  | .host op => .host op

/-- The next atomic operation of a `TICK`: an item of phase 1 while there is one, then `FLUSH`; after it the operations
before the timer check and the `TIMER_CHECK` are next (R240, R245). What is left of the tick goes back to the front of the
schedule. -/
def tickStep (ingest : List TickItem) (beforeTimer : List HostOp) (now : Time) (s : State) :
    Host.Outcome State Fault Refusal :=
  match ingest with
  | .rx x :: items => rxByte x (s.withPending (.tick items beforeTimer now :: s.pending))
  | .host op :: items => .next (performHostOp op (s.withPending (.tick items beforeTimer now :: s.pending)))
  | [] => .next (flush (s.withPending (beforeTimer.map .host ++ .timerCheck now :: s.pending)))

/-- One operation of the schedule, which is already taken off it. -/
def applyOp (op : Op) (s : State) : Host.Outcome State Fault Refusal :=
  match op with
  | .reset => .next (resetOp s)
  | .init now => .next (initOp (s.sampleNow now))
  | .host op => .next (performHostOp op s)
  | .rxByte x => rxByte x s
  | .flush => .next (flush s)
  | .timerCheck now => .next (timerCheck (s.sampleNow now))
  | .tick ingest beforeTimer now => tickStep ingest beforeTimer now s

/-- `TICK@t [bytes]` of 30_encoding.md R111, every sample `t`, every handler reply empty. -/
def Op.tickAt (t : Time) (bytes : List Byte) : Op :=
  .tick (bytes.map (fun b => .rx ⟨b, t, []⟩)) [] t

/-- The bytes of the frame attempt in hand that the parser registers hold, when the next byte is its checksum
(40_frame_transport.md R126): `HEAD`, command, length, payload. -/
def heldBytes (s : State) : List Byte :=
  covered s.rxCommand s.rxLength (s.rxbuf.readFirst s.rxLength.toNat)

/-- A frame without payload placed where its last byte is the next input: the parser holds the header and the schedule
begins with the `RX_BYTE` of the checksum. A frame that does not begin with `HEAD` is placed as its first byte, fed while
idle. `now` and the reply are the ports' present values. -/
def placeFrame (frame : List Byte) (s : State) : State :=
  match frame with
  | [h, c, _, _, k] =>
    if h = Config.head then
      (((s.withCommand c).withLength 0).atPos 4).withPending (.rxByte ⟨k, s.nowMs, s.reply⟩ :: s.pending)
    else s.toIdle.withPending (.rxByte ⟨h, s.nowMs, s.reply⟩ :: s.pending)
  | _ => s

end Sys2Proof.Machine
end

