-- ==== Sys2Proof/Machine/Step.lean ====
section
/-! DEFINITION. One step of the machine: one atomic operation of 30_encoding.md R110, the next of the schedule
(00_scope.md R14, log 1). -/

namespace Sys2Proof.Machine

/-- One step. A configuration that breaks a constraint is refused (93_implementation_defined.md U10). With nothing scheduled
the block waits: every change of state is an operation (00_scope.md R14), and it has no halt (43_tick_loop.md R248). -/
def step (s : State) : Host.Outcome State Fault Refusal :=
  if s.cfg.legal then
    match s.pending with
    | [] => .next s
    | op :: ops => applyOp op (s.withPending ops)
  else .refused .badConfiguration

/-- `s` with the frame of an opcode table word placed so that the next step completes it and runs its instruction
(log 10). -/
def State.withFetchWord (s : State) (nbits w : Nat) : State :=
  placeFrame (tableWordBytes s.cfg nbits w) s

end Sys2Proof.Machine
end

