-- ==== Sys2Proof/Safety.lean ====
section
/-! DEFINITION. What claims about runs are stated with: the invariants of 10_state.md R52, the states that agree outside named
registers, and the one-bit error of 40_frame_transport.md R123. -/

namespace Sys2Proof.Machine

/-- R52 (a): an idle parser has `pos` = 0; in a frame 1 ≤ `pos` ≤ 1028. -/
def PosInRange (s : State) : Prop :=
  (s.inFrame = false → s.pos = 0) ∧ (s.inFrame = true → 1 ≤ s.pos.toNat ∧ s.pos.toNat ≤ 1028)

/-- R52 (b): in a frame, once the header is read, `pos` ≤ 4 + `rx_length`. -/
def PosInsideFrame (s : State) : Prop :=
  s.inFrame = true → 4 ≤ s.pos.toNat → s.pos.toNat ≤ 4 + s.rxLength.toNat

/-- R52 (a) and (b), what the parser registers keep. -/
def ParserInv (s : State) : Prop := PosInRange s ∧ PosInsideFrame s

/-- R52 (d): a record of the queue is a legal frame with its right checksum. -/
def RecordOk (cfg : Config) (r : FrameRec) : Prop :=
  r.length.toNat ≤ 1024 ∧ r.payload.length = r.length.toNat ∧
    r.checksum = crc8 cfg ([0xAA, r.command, lo8 r.length, hi8 r.length] ++ r.payload)

/-- R52 (c) and (d). -/
def QueueInv (s : State) : Prop := s.oq.length ≤ s.cfg.qDepth ∧ ∀ r ∈ s.oq, RecordOk s.cfg r

/-- R52 (f): a legal value of a state register, one of the six encodings of 30_encoding.md R104. -/
def LegalState (cfg : Config) (v : Byte) : Prop := v = cfg.stIdle ∨ ∃ r, v = cfg.enc r

/-- R52 (e) to (h), what the Behavior Controller registers keep. -/
def ControllerInv (s : State) : Prop :=
  s.batteryLevel.toNat ≤ 100 ∧ LegalState s.cfg s.currentState ∧ LegalState s.cfg s.previousState ∧
    ((s.currentState = s.cfg.stIdle ∧ s.previousState = s.cfg.stIdle) ∨
      (s.currentState ≠ s.previousState ∧ s.currentState ≠ s.cfg.stIdle)) ∧
    (∀ r, s.currentState = s.cfg.enc r → s.currentExpressionId = exprOf r) ∧
    (s.currentState = s.cfg.stIdle → s.currentExpressionId = 0x00)

/-- R52 (i): only the closed command set is ever bound, and the internal handler only to set-state. -/
def TableInv (s : State) : Prop :=
  (∀ c, s.cfg.inCmdSet c = false → s.dtab.get c = .unbound) ∧
    (∀ c, s.dtab.get c = .bound .setState → c = Config.cmdSetState)

/-- What fits its width: the time input and the timestamp `TIME_W` bits, the state registers `STATE_W` bits, a bound route
`ROUTE_W` bits (00_scope.md R6; 10_state.md R34 to R37). -/
def WidthInv (s : State) : Prop :=
  s.nowMs < 2 ^ s.cfg.timeW ∧ s.stateEnterTimestamp < 2 ^ s.cfg.timeW ∧
    s.currentState.toNat < 2 ^ s.cfg.stateW ∧ s.previousState.toNat < 2 ^ s.cfg.stateW ∧
    ∀ c r, s.dtab.get c = .bound (.ext r) → r < 2 ^ s.cfg.routeW

/-- `RXBUF` is in canonical form and has the indices 0 to 1023 only (20_memory.md R61). -/
def BufferInv (s : State) : Prop := Memory.wf s.rxbuf ∧ ∀ c ∈ s.rxbuf, c.1 < 1024

/-- The invariants of every state reachable from reset (R52), with the constraints on the configuration
(92_eei_decisions.md section 6). -/
structure Inv (s : State) : Prop where
  config : s.cfg.wf
  parser : ParserInv s
  queue : QueueInv s
  controller : ControllerInv s
  table : TableInv s
  widths : WidthInv s
  buffer : BufferInv s

/-- The parser's registers and every byte of `RXBUF` are the same. -/
def SameParser (s t : State) : Prop :=
  t.inFrame = s.inFrame ∧ t.pos = s.pos ∧ t.rxCommand = s.rxCommand ∧ t.rxLength = s.rxLength ∧
    ∀ a, t.rxbuf.read a = s.rxbuf.read a

/-- The registers only `TRANSITION` writes, and its stream, are the same (10_state.md R35, R36, R37, R39, R48). -/
def SameTransition (s t : State) : Prop :=
  t.currentState = s.currentState ∧ t.previousState = s.previousState ∧
    t.stateEnterTimestamp = s.stateEnterTimestamp ∧ t.currentExpressionId = s.currentExpressionId ∧ t.expr = s.expr

/-- The registers that only setters write are the same (10_state.md R38, R40, R41). -/
def SameValues (s t : State) : Prop :=
  t.batteryLevel = s.batteryLevel ∧ t.servoHAngle = s.servoHAngle ∧ t.servoVAngle = s.servoVAngle

/-- The model's input ports and the configuration are the same. -/
def SamePorts (s t : State) : Prop :=
  t.cfg = s.cfg ∧ t.nowMs = s.nowMs ∧ t.reply = s.reply ∧ t.pending = s.pending

/-- The two byte sequences have the same length and differ in exactly one bit (40_frame_transport.md R123). -/
def OneBitApart (xs ys : List Byte) : Prop :=
  ∃ pre b post k, k < 8 ∧ xs = pre ++ b :: post ∧ ys = pre ++ (b ^^^ (1#8 <<< k)) :: post

/-- The status record that a transition into a state enqueues (42_behavior_controller.md R203; 30_encoding.md R100). -/
def statusRecord (s : State) (code expression : Byte) : FrameRec :=
  { command := s.cfg.statusCmd, length := 7,
    payload := [code, s.batteryLevel, expression, lo8 s.servoHAngle, hi8 s.servoHAngle,
      lo8 s.servoVAngle, hi8 s.servoVAngle],
    checksum := crc8 s.cfg [0xAA, s.cfg.statusCmd, 0x07, 0x00, code, s.batteryLevel, expression,
      lo8 s.servoHAngle, hi8 s.servoHAngle, lo8 s.servoVAngle, hi8 s.servoVAngle] }

/-- The input bytes of an operation, in order. -/
def Op.bytes : Op → List Byte
  | .rxByte x => [x.byte]
  | .tick ingest _ _ => ingest.filterMap (fun i => match i with | .rx x => some x.byte | .host _ => none)
  | .reset | .init _ | .host _ | .flush | .timerCheck _ => []

/-- The number of steps an operation takes: one, or for a `TICK` one for each of its atomic operations. -/
def Op.steps : Op → Nat
  | .tick ingest beforeTimer _ => ingest.length + beforeTimer.length + 2
  | .reset | .init _ | .host _ | .rxByte _ | .flush | .timerCheck _ => 1

/-- `n` steps, stopping at the first fault or refusal. -/
def runSteps : Nat → State → Host.Outcome State Fault Refusal
  | 0, s => .next s
  | n + 1, s =>
    match step s with
    | .next t => runSteps n t
    | .fault f => .fault f
    | .refused r => .refused r

/-- The step that is being taken is not `RESET`. -/
def NotReset (s : State) : Prop := ∀ ops, s.pending ≠ .reset :: ops

end Sys2Proof.Machine
end

