-- ==== Sys2Proof/Certificates/Slice0/Obligations.lean ====
section
/-! DEFINITION. The statements about the model, for the provers. Each docstring names the rules of spec/ it formalises. -/

open Sys2Proof Sys2Proof.Machine

/-! Encoding (30_encoding.md). -/

/-- R90, R95, R109, on words written out byte by byte from the spec (95_test_vectors.md T-CD-11): each decodes to its command,
the bytes after the frame are left. -/
def Obligations.SpecFramesDecode : Prop :=
  decode Config.default [0xAA, 0x01, 0x08, 0x00, 0x3C, 0x00, 0x00, 0x00, 0x00, 0x00, 0x01, 0x00, 0x49] =
      .ok (.heartbeat [0x3C, 0x00, 0x00, 0x00, 0x00, 0x00, 0x01, 0x00]) [] ∧
    decode Config.default [0xAA, 0x03, 0x02, 0x00, 0xAA, 0xAA, 0x85] = .ok (.setServo [0xAA, 0xAA]) [] ∧
    decode Config.default [0xAA, 0x07, 0x01, 0x00, 0x05, 0x3C, 0xAA] = .ok (.setState [0x05]) [0xAA] ∧
    decode Config.default [0xAA, 0x0D, 0x01, 0x00, 0x01, 0xBC] = .ok (.error [0x01]) []

/-- R90, R93, R94, R95: under every legal configuration, decoding the frame of a well-formed instruction gives the instruction
back, whatever bytes follow. -/
def Obligations.DecodeEncodeRoundTrip : Prop :=
  ∀ (cfg : Config) (i : Instr) (rest : List Byte), cfg.wf → i.wellFormed = true →
    decode cfg (encode cfg i ++ rest) = .ok i rest

/-- The other direction: bytes that decode to an instruction are that instruction's own frame and the rest, and the
instruction is well formed. -/
def Obligations.DecodedBytesAreItsFrame : Prop :=
  ∀ (cfg : Config) (bs rest : List Byte) (i : Instr), decode cfg bs = .ok i rest →
    bs = encode cfg i ++ rest ∧ i.wellFormed = true

/-- R107 (b), (c), (d) as the decoder of one frame answers them: a `LENGTH` above 1024, a wrong checksum, and a command outside
the closed set are each rejected by name. -/
def Obligations.ReservedFramesAreRejectedByName : Prop :=
  ∀ (cfg : Config) (c lo hi k : Byte) (p body rest : List Byte),
    (1024 < (le16 lo hi).toNat → decode cfg (0xAA :: c :: lo :: hi :: body) = .bad (.oversize (le16 lo hi))) ∧
    (p.length ≤ 1024 → k ≠ crc8 cfg (covered c (lengthOf p) p) →
      decode cfg (covered c (lengthOf p) p ++ k :: rest) =
        .bad (.checksumMismatch k (crc8 cfg (covered c (lengthOf p) p)))) ∧
    (p.length ≤ 1024 → (∀ x, cfg.cmd x ≠ c) →
      decode cfg (frameBytes cfg c p ++ rest) = .bad (.reservedCommand c))

/-- R33, R108, R6: the hardware bits of a Dispatch Table entry, ten by default, for every `ROUTE_W` (log 5): an entry whose
route fits is read back from its bits, and with `bound` = 0 the other bits are ignored. A route that `BIND` binds fits: a
wider number loses its high bits at the port, the model's choice (log 5). -/
def Obligations.TableEntryBits : Prop :=
  (∀ (w : Nat) (e : DtabEntry), (∀ r, e = .bound (.ext r) → r < 2 ^ w) → DtabEntry.ofBits w (e.bits w) = e) ∧
    ((DtabEntry.bound .setState).bits 8).toNat = 0x300 ∧
    (∀ r : Route, r < 256 → ((DtabEntry.bound (.ext r)).bits 8).toNat = 0x200 + r) ∧
    (∀ (w : Nat) (b : BitVec (1 + (1 + w))), b.getLsbD (1 + w) = false → DtabEntry.ofBits w b = .unbound) ∧
    (∀ (s : State) (c : Byte) (r : Route), (∃ x, s.cfg.cmd x = c) →
      (bind c (.ext r) s).dtab.get c = .bound (.ext (r % 2 ^ s.cfg.routeW)))

/-- R100, R101, R102 in the pseudo-forms of R112: the three fixed payload layouts, little-endian (R66), on bytes the spec
writes out. -/
def Obligations.PayloadLayoutsLittleEndian : Prop :=
  heartbeatFrame Config.default 60 65536 =
      [0xAA, 0x01, 0x08, 0x00, 0x3C, 0x00, 0x00, 0x00, 0x00, 0x00, 0x01, 0x00, 0x49] ∧
    sensorFrame Config.default 300 1 128 = [0xAA, 0x09, 0x04, 0x00, 0x2C, 0x01, 0x01, 0x80, 0x2F] ∧
    statusFrame Config.default 4 100 3 0x012C 0xFFFF =
      [0xAA, 0x07, 0x07, 0x00, 0x04, 0x64, 0x03, 0x2C, 0x01, 0xFF, 0xFF, 0xA6]

/-- R104, under the default encodings of decision D7: exactly the bytes 1 to 5 name a real state, in the listed order. -/
def Obligations.DefaultStateEncoding : Prop :=
  (∀ v : Byte, Config.default.realOf v = none ↔ v.toNat < 1 ∨ 5 < v.toNat) ∧
    Config.default.realOf 1 = some .sleep ∧ Config.default.realOf 2 = some .wake ∧
    Config.default.realOf 3 = some .listen ∧ Config.default.realOf 4 = some .think ∧
    Config.default.realOf 5 = some .talk

/-! The checksum unit (40_frame_transport.md). -/

/-- R120: the checksum folds, from `CRC_INIT`, the step "exclusive-OR the byte in, then eight times shift left and, if bit 7 was
set before the shift, exclusive-OR with 0x07"; with the worked examples of R120. -/
def Obligations.Crc8IsTheStatedAlgorithm : Prop :=
  (∀ (cfg : Config) (bs : List Byte), crc8 cfg bs = bs.foldl crc8Byte cfg.crcInit) ∧
    (∀ acc b : Byte, crc8Byte acc b =
      (fun a : Byte => if a.getLsbD 7 then (a <<< 1) ^^^ 0x07 else a <<< 1)^[8] (acc ^^^ b)) ∧
    crc8 Config.default [] = 0x00 ∧ crc8 Config.default [0x00] = 0x00 ∧ crc8 Config.default [0xAA] = 0x5F ∧
    crc8 Config.default [0xAA, 0x07] = 0x8F ∧ crc8 Config.default [0x00, 0x00, 0x00, 0xAA] = 0x5F

/-- R122 (an inference the spec marks as its own): a running accumulator gives the same checksum; data followed by its own
checksum leaves zero; with `CRC_INIT` = 0 the checksum is linear over exclusive-OR of sequences of one length. -/
def Obligations.ChecksumLaws : Prop :=
  (∀ (cfg : Config) (bs : List Byte) (b : Byte), crc8 cfg (bs ++ [b]) = crc8Byte (crc8 cfg bs) b) ∧
    (∀ (cfg : Config) (bs : List Byte), crc8 cfg (bs ++ [crc8 cfg bs]) = 0x00) ∧
    (∀ (cfg : Config) (xs ys : List Byte), cfg.crcInit = 0x00 → xs.length = ys.length →
      crc8 cfg (List.zipWith (· ^^^ ·) xs ys) = crc8 cfg xs ^^^ crc8 cfg ys)

/-- R123 (an inference the spec marks as its own): two sequences of one length that differ in exactly one bit have different
checksums; so a frame with one bit of its command or payload flipped, its checksum kept, is returned by the parser as an
invalid frame. -/
def Obligations.SingleBitErrorsAreDetected : Prop :=
  (∀ (cfg : Config) (xs ys : List Byte), OneBitApart xs ys → crc8 cfg xs ≠ crc8 cfg ys) ∧
    (∀ (s : State) (c d : Byte) (p q : List Byte), s.inFrame = false → p.length ≤ 1024 → q.length = p.length →
      OneBitApart (c :: p) (d :: q) →
      ∃ f, (feedAll (covered d (lengthOf q) q ++ [crc8 s.cfg (covered c (lengthOf p) p)]) s).2 = [f] ∧
        f.valid = false)

/-! Ingest (40_frame_transport.md). -/

/-- R127: while idle every byte but `HEAD` is discarded with no effect at all, and `HEAD` starts an attempt with `pos` = 1 and
clears nothing; inside the attempt a second `AA` is the command. -/
def Obligations.IdleArm : Prop :=
  ∀ (s : State) (b : Byte), s.inFrame = false →
    (b ≠ 0xAA → feed b s = (s, none)) ∧
    feed 0xAA s = ({ s with inFrame := true, pos := 1 }, none) ∧
    feed 0xAA (feed 0xAA s).1 = ({ s with inFrame := true, pos := 2, rxCommand := 0xAA }, none)

/-- R128: the bytes at offsets 1, 2, 3 are stored as command, low length byte, high length byte, whatever they are. -/
def Obligations.HeaderArms : Prop :=
  ∀ (s : State) (b : Byte), s.inFrame = true →
    (s.pos = 1 → feed b s = ({ s with rxCommand := b, pos := 2 }, none)) ∧
    (s.pos = 2 → ∃ n, feed b s = ({ s with rxLength := n, pos := 3 }, none) ∧
      n.toNat = b.toNat + 256 * (s.rxLength.toNat / 256)) ∧
    (s.pos = 3 → ∃ n, feed b s = ({ s with rxLength := n, pos := 4 }, none) ∧
      n.toNat = s.rxLength.toNat % 256 + 256 * b.toNat)

/-- R129: a payload byte is stored at its relative offset and nowhere else; with `LENGTH` = 0 the byte at offset 4 is the
checksum; the byte at offset 1028 of an over-long frame is consumed, not stored, and the attempt is abandoned in that `FEED`. -/
def Obligations.PayloadArm : Prop :=
  ∀ (s : State) (b : Byte), s.inFrame = true → 4 ≤ s.pos.toNat →
    (s.pos.toNat < 4 + s.rxLength.toNat → s.pos.toNat ≤ 1027 →
      ∃ m, feed b s = ({ s with rxbuf := m, pos := s.pos + 1 }, none) ∧
        m.read (s.pos.toNat - 4) = b ∧ ∀ a, a ≠ s.pos.toNat - 4 → m.read a = s.rxbuf.read a) ∧
    (s.rxLength = 0 → s.pos = 4 → ∃ f, feed b s = ({ s with inFrame := false, pos := 0 }, some f) ∧ f.received = b) ∧
    (1024 < s.rxLength.toNat → s.pos.toNat = 1028 →
      (feed b s).2 = none ∧ (feed b s).1.inFrame = false ∧ (feed b s).1.rxbuf = s.rxbuf)

/-- R130: the defensive bound. The byte at offset 1028 of an attempt whose length is above 1024 abandons the attempt: the
parser is idle, no frame is returned, `DIAG_OVERSIZE_ABANDON` is raised, and the byte is not taken as a new `HEAD`; with a
length of 1024 that byte completes the frame; in no other state that meets R52 (a), (b) does a `FEED` raise anything. -/
def Obligations.DefensiveBound : Prop :=
  ∀ (s : State) (b : Byte),
    (s.inFrame = true → s.pos.toNat = 1028 → 1024 < s.rxLength.toNat →
      feed b s =
        ({ s with inFrame := false, pos := 0, diag := s.diag ++ [.oversizeAbandon s.rxCommand s.rxLength] }, none)) ∧
    (s.inFrame = true → s.pos.toNat = 1028 → s.rxLength.toNat = 1024 → ∃ f, (feed b s).2 = some f) ∧
    (ParserInv s → ¬ (s.inFrame = true ∧ s.pos.toNat = 1028 ∧ 1024 < s.rxLength.toNat) →
      (feed b s).1.diag = s.diag)

/-- R131: the byte at offset 4 + length is compared with the computed checksum, the completed frame is returned once, valid or
not, and the parser is idle. -/
def Obligations.ChecksumArm : Prop :=
  ∀ (s : State) (b : Byte) (payload : List Byte) (k : Byte), s.inFrame = true → s.pos.toNat = 4 + s.rxLength.toNat →
    payload = (List.range s.rxLength.toNat).map s.rxbuf.read →
    k = crc8 s.cfg ([0xAA, s.rxCommand, lo8 s.rxLength, hi8 s.rxLength] ++ payload) →
    feed b s = ({ s with inFrame := false, pos := 0 },
      some { valid := decide (k = b), command := s.rxCommand, length := s.rxLength, payload := payload,
             received := b, computed := k })

/-- R132, R271 (an inference the spec marks as its own): in a state that meets R52 (a), (b), the byte fed does exactly one
of: it is discarded while idle; it goes into the attempt in hand, which goes on; it ends the attempt with one frame; it ends
the attempt with one abandonment. -/
def Obligations.EveryByteHasOneFate : Prop :=
  ∀ (s : State) (b : Byte), ParserInv s →
    (s.inFrame = false ∧ b ≠ 0xAA ∧ feed b s = (s, none)) ∨
    ((feed b s).1.inFrame = true ∧ (feed b s).1.pos = s.pos + 1 ∧ (feed b s).2 = none ∧ (feed b s).1.diag = s.diag) ∨
    (s.inFrame = true ∧ (feed b s).1.inFrame = false ∧ (∃ f, (feed b s).2 = some f) ∧ (feed b s).1.diag = s.diag) ∨
    (s.inFrame = true ∧ (feed b s).1.inFrame = false ∧ (feed b s).2 = none ∧
      (feed b s).1.diag = s.diag ++ [.oversizeAbandon s.rxCommand s.rxLength])

/-- 20_memory.md R61, R129: which byte of `RXBUF` a `FEED` changes, for every byte of the buffer's address space. -/
def Obligations.FeedBufferFrame : Prop :=
  ∀ (s : State) (b : Byte) (a : Nat), (s.inFrame = true → 1 ≤ s.pos.toNat) →
    (feed b s).1.rxbuf.read a =
      if s.inFrame = true ∧ 4 ≤ s.pos.toNat ∧ s.pos.toNat < 4 + s.rxLength.toNat ∧ a < 1024 ∧ a + 4 = s.pos.toNat
      then b else s.rxbuf.read a

/-- A `FEED` changes the parser's registers and `DIAG` only. -/
def Obligations.FeedFrame : Prop :=
  ∀ (s : State) (b : Byte), ∃ u : State, (feed b s).1 = { u with
      cfg := s.cfg, oq := s.oq, dtab := s.dtab, currentState := s.currentState, previousState := s.previousState,
      stateEnterTimestamp := s.stateEnterTimestamp, batteryLevel := s.batteryLevel,
      currentExpressionId := s.currentExpressionId, servoHAngle := s.servoHAngle, servoVAngle := s.servoVAngle,
      running := s.running, nowMs := s.nowMs, reply := s.reply, pending := s.pending, tx := s.tx, disp := s.disp,
      expr := s.expr, sendResults := s.sendResults }

/-- R134 (an inference the spec marks as its own): the bytes of a frame of any command and any payload of at most 1024 bytes,
fed to an idle parser, give nothing until the last byte, then that frame, valid; no diagnostic is raised and the parser is
idle again. -/
def Obligations.FrameRoundTripThroughParser : Prop :=
  ∀ (s : State) (c : Byte) (p : List Byte), s.inFrame = false → p.length ≤ 1024 →
    (feedAll (frameBytes s.cfg c p).dropLast s).2 = [] ∧
    ∃ t k, feedAll (frameBytes s.cfg c p) s = (t, [⟨true, c, lengthOf p, p, k, k⟩]) ∧
      t.inFrame = false ∧ t.pos = 0 ∧ t.diag = s.diag

/-- R133 (a) (an inference the spec marks as its own): garbage without the sync byte, fed while idle, is discarded whole, and
a well-formed frame after it is returned as valid. -/
def Obligations.ResyncAfterGarbageWithoutSync : Prop :=
  ∀ (s : State) (g : List Byte) (c : Byte) (p : List Byte), s.inFrame = false → 0xAA ∉ g → p.length ≤ 1024 →
    (feedAll g s) = (s, []) ∧
    ∃ f, (feedAll (g ++ frameBytes s.cfg c p) s).2 = [f] ∧ f.valid = true ∧ f.command = c ∧ f.payload = p

/-- 20_memory.md R79 (an inference the spec marks as its own): what `FEED` returns and leaves in the parser depends on the
configuration, the parser's registers and the byte only; so over any schedule without `RESET` the parser ends as if the input
bytes had been fed one after the other, however they are cut into ticks or single bytes and whatever `FLUSH`, `TIMER_CHECK`,
handlers and host operations come between. -/
def Obligations.ChunkingInvariance : Prop :=
  (∀ (s t : State) (b : Byte), t.cfg = s.cfg → SameParser s t →
    (feed b t).2 = (feed b s).2 ∧ SameParser (feed b s).1 (feed b t).1) ∧
  (∀ s : State, s.cfg.wf → (∀ op ∈ s.pending, op ≠ .reset) →
    ∃ t, runSteps (s.pending.map Op.steps).sum s = .next t ∧ t.pending = [] ∧
      SameParser (feedAll (s.pending.flatMap Op.bytes) s).1 t)

/-- 70_reset_and_hazards.md R329 (an inference the spec marks as its own): 1025 zero bytes bring the parser to idle from any
state that meets R52 (a), (b), and leave it idle. -/
def Obligations.ZerosForceTheParserIdle : Prop :=
  ∀ (s : State) (n : Nat), ParserInv s → 1025 ≤ n →
    (feedAll (List.replicate n 0x00) s).1.inFrame = false ∧ (feedAll (List.replicate n 0x00) s).1.pos = 0

/-! Enqueue and drain (40_frame_transport.md). -/

/-- R135, R136: an over-long payload is refused first, with `DIAG_SEND_OVERSIZE`; then a full queue refuses silently; else the
record with its checksum is appended at the tail, for every command byte. -/
def Obligations.SendThreeOutcomes : Prop :=
  ∀ (s : State) (c : Byte) (p : List Byte),
    (1024 < p.length → send c p s = ({ s with diag := s.diag ++ [.sendOversize c p.length] }, .rejected)) ∧
    (p.length ≤ 1024 → s.oq.length = s.cfg.qDepth → send c p s = (s, .rejected)) ∧
    (p.length ≤ 1024 → s.oq.length ≠ s.cfg.qDepth → ∃ n : Half, n.toNat = p.length ∧
      send c p s =
        ({ s with oq := s.oq ++ [⟨c, n, p, crc8 s.cfg ([0xAA, c, lo8 n, hi8 n] ++ p)⟩] }, .accepted))

/-- R137 (an inference the spec marks as its own): however many legal frames are sent without a drain, the queue holds the
first ones that fit, in order and unaltered, and nothing else changes; a full queue rejects. -/
def Obligations.QueueSaturation : Prop :=
  ∀ (s : State) (l : List (Byte × List Byte)), s.oq.length ≤ s.cfg.qDepth → (∀ x ∈ l, x.2.length ≤ 1024) →
    l.foldl (fun u x => (send x.1 x.2 u).1) s =
      { s with oq := (s.oq ++ l.map (fun x => mkRecord s.cfg x.1 x.2)).take s.cfg.qDepth } ∧
    (s.oq.length = s.cfg.qDepth → ∀ x ∈ l, (send x.1 x.2 s).2 = .rejected)

/-- R140: a `FLUSH` step writes every queued record to `TX`, head first, each in the wire format, and leaves the queue
empty. -/
def Obligations.FlushDrainsInOrder : Prop :=
  ∀ (s : State) (ops : List Op), s.cfg.wf → s.pending = .flush :: ops →
    step s = .next { s with
      pending := ops, oq := [],
      tx := s.tx ++ s.oq.flatMap (fun r =>
        [0xAA, r.command, lo8 r.length, hi8 r.length] ++ r.payload ++ [r.checksum]) }

/-- R141 (an inference the spec marks as its own): what the serializer writes for a record that meets R52 (d) is a frame that
an idle parser of the same configuration returns as valid. -/
def Obligations.TransmittedFramesAreValid : Prop :=
  ∀ (s : State) (r : FrameRec), s.inFrame = false → RecordOk s.cfg r →
    (feedAll (serialize r) s).2 = [⟨true, r.command, r.length, r.payload, r.checksum, r.checksum⟩]

/-- R63, R30, R46: over any step but `RESET`, either the queue is drained whole to `TX`, or nothing is written to `TX` and the
records queued before are still the first ones, unaltered. -/
def Obligations.QueueIsFirstInFirstOut : Prop :=
  ∀ (s t : State), step s = .next t → NotReset s →
    (t.oq = [] ∧ t.tx = s.tx ++ s.oq.flatMap serialize) ∨ (t.tx = s.tx ∧ s.oq <+: t.oq)

/-! Bind and dispatch (41_command_dispatcher.md). -/

/-- R160, R161: a `BIND` step outside the closed set, or of the internal handler to another command, changes nothing and raises
`DIAG_BAD_BIND`; else it overwrites that one entry silently. The route is one of R34, `ROUTE_W` bits; `TableEntryBits` says what
the model does with a wider number. -/
def Obligations.BindOutcomes : Prop :=
  ∀ (s : State) (c : Byte) (h : Handler) (ops : List Op), s.cfg.wf → s.pending = .host (.bind c h) :: ops →
    (((∀ x, s.cfg.cmd x ≠ c) ∨ (h = .setState ∧ c ≠ 0x07)) →
      step s = .next { s with pending := ops, diag := s.diag ++ [.badBind c] }) ∧
    ((∃ x, s.cfg.cmd x = c) → (h = .setState → c = 0x07) → (∀ r, h = .ext r → r < 2 ^ s.cfg.routeW) →
      ∃ d, step s = .next { s with pending := ops, dtab := d } ∧ d.get c = .bound h ∧
        ∀ e, e ≠ c → d.get e = s.dtab.get e)

/-- R162: an entry once bound stays bound until reset. -/
def Obligations.NoUnbind : Prop :=
  ∀ (s t : State) (c : Byte), step s = .next t → NotReset s → s.dtab.get c ≠ .unbound → t.dtab.get c ≠ .unbound

/-- R165, R170 to R182: a command whose entry is unbound is reported and discarded: each of the thirteen commands, and a valid
frame of any command byte, in or outside the closed set. -/
def Obligations.UnboundCommandIsReported : Prop :=
  (∀ (i : Instr) (s : State), s.dtab.get (s.cfg.cmd i.command) = .unbound →
    exec i s = .next { s with diag := s.diag ++ [.unhandledCommand (s.cfg.cmd i.command) (lengthOf i.payload)] }) ∧
  ∀ (c : Byte) (p : List Byte) (s : State), s.dtab.get c = .unbound →
    dispatch c p s = { s with diag := s.diag ++ [.unhandledCommand c (lengthOf p)] }

/-- R163, R170 to R182: each of the thirteen commands, bound to an external route, emits one `DISP` event with that route, its
own identifier, its length and its payload unaltered, and then the collaborator's reply is performed. -/
def Obligations.BoundCommandIsRouted : Prop :=
  ∀ (i : Instr) (s : State) (r : Route), s.dtab.get (s.cfg.cmd i.command) = .bound (.ext r) →
    exec i s = .next (performReply s.reply { s with disp := s.disp ++
      [{ route := r, command := s.cfg.cmd i.command, length := lengthOf i.payload, payload := i.payload }] })

/-- R170 to R182 with an empty reply: the DISP event is the whole effect, for each of the thirteen commands. -/
def Obligations.BoundCommandWithEmptyReply : Prop :=
  ∀ (i : Instr) (s : State) (r : Route), i.wellFormed = true → s.reply = [] →
    s.dtab.get (s.cfg.cmd i.command) = .bound (.ext r) →
    ∃ n : Half, n.toNat = i.payload.length ∧
      exec i s = .next { s with disp := s.disp ++ [⟨r, s.cfg.cmd i.command, n, i.payload⟩] }

/-- R166, R273: a reply is performed in list order, each operation as the host's operation of the same name; one that fails
does not stop the rest. -/
def Obligations.ReplyIsPerformedInOrder : Prop :=
  (∀ (ops more : List HandlerOp) (s : State), performReply (ops ++ more) s = performReply more (performReply ops s)) ∧
    (∀ (s : State) (v : Byte), performReply [.setBatteryLevel v] s =
      if v.toNat ≤ 100 then { s with batteryLevel := v } else { s with diag := s.diag ++ [.badBattery v] }) ∧
    (∀ (s : State) (h v : Half), performReply [.setServoAngles h v] s = { s with servoHAngle := h, servoVAngle := v }) ∧
    (∀ (s : State) (c : Byte) (p : List Byte), performReply [.send c p] s =
      { (send c p s).1 with sendResults := s.sendResults ++ [(send c p s).2] })

/-- R166: whatever the reply, an external handler cannot bind, transition, feed, flush or set `running`, and raises no
diagnostic but `DIAG_BAD_BATTERY` and `DIAG_SEND_OVERSIZE` (60_exceptions.md R271). -/
def Obligations.ExternalHandlerAuthority : Prop :=
  ∀ (ops : List HandlerOp) (s t : State), performReply ops s = t →
    SameParser s t ∧ SameTransition s t ∧ SamePorts s t ∧ t.dtab = s.dtab ∧ t.running = s.running ∧ t.tx = s.tx ∧
      t.disp = s.disp ∧ s.oq <+: t.oq ∧
      ∃ ds, t.diag = s.diag ++ ds ∧ ∀ d ∈ ds, d.code = 0x07 ∨ d.code = 0x08

/-- R167 (an inference the spec marks as its own): of any dispatch exactly one is true: one `DISP` event was emitted; one
`DIAG_UNHANDLED_COMMAND` was raised; the internal handler ran with the frame's payload. -/
def Obligations.ExactlyOneDelivery : Prop :=
  ∀ (i : Instr) (s : State), ∃ t, exec i s = .next t ∧
    ((∃ r, s.dtab.get (s.cfg.cmd i.command) = .bound (.ext r) ∧
        t.disp = s.disp ++ [⟨r, s.cfg.cmd i.command, lengthOf i.payload, i.payload⟩] ∧
        ∀ d ∈ t.diag.drop s.diag.length, d.code = 0x07 ∨ d.code = 0x08) ∨
      (s.dtab.get (s.cfg.cmd i.command) = .unbound ∧ t.disp = s.disp ∧
        t.diag = s.diag ++ [.unhandledCommand (s.cfg.cmd i.command) (lengthOf i.payload)]) ∨
      (s.dtab.get (s.cfg.cmd i.command) = .bound .setState ∧ t.disp = s.disp ∧ t = hSetState i.payload s))

/-- The frame of the thirteen commands (R163, R164, R176; 10_state.md R35 to R42): parser registers, every byte of `RXBUF`, the
table, `running`, `TX` and the ports are unchanged whatever is bound; not bound to the internal handler, the registers of
`TRANSITION` are unchanged too; not bound to a route, the value registers, `DISP` and the results are unchanged too. -/
def Obligations.CommandFrame : Prop :=
  ∀ (i : Instr) (s t : State), exec i s = .next t →
    SameParser s t ∧ SamePorts s t ∧ t.dtab = s.dtab ∧ t.running = s.running ∧ t.tx = s.tx ∧ s.oq <+: t.oq ∧
    (s.dtab.get (s.cfg.cmd i.command) ≠ .bound .setState → SameTransition s t) ∧
    ((∀ r, s.dtab.get (s.cfg.cmd i.command) ≠ .bound (.ext r)) →
      SameValues s t ∧ t.disp = s.disp ∧ t.sendResults = s.sendResults)

/-! The Behavior Controller (42_behavior_controller.md). -/

/-- R205, R265: a set-state request with an empty payload or with a first byte that names no real state changes nothing and
raises `DIAG_INVALID_STATE`. Under the default encodings these bytes are R205's 0 and 6 to 255; under others the request is
judged by the enumeration of R104, the model's reading (log 20). -/
def Obligations.InvalidStateRequestIsRejected : Prop :=
  ∀ (s : State), s.dtab.get 0x07 = .bound .setState →
    exec (.setState []) s = .next { s with diag := s.diag ++ [.invalidState none] } ∧
    ∀ (v : Byte) (more : List Byte), (∀ r, s.cfg.enc r ≠ v) →
      exec (.setState (v :: more)) s = .next { s with diag := s.diag ++ [.invalidState (some v)] }

/-- R176, R200, R201, R203, R206: a set-state request for another real state, with room in the queue, writes the four
registers together, pushes the state's expression, and enqueues the status frame built after them; the payload's later bytes
are ignored. That a request for `enc r` is accepted under every configuration is the model's reading of R205's "1 to 5" by the
enumeration of R104 (log 20). -/
def Obligations.SetStateTransition : Prop :=
  ∀ (s : State) (r : RealState) (more : List Byte), s.cfg.wf → s.dtab.get 0x07 = .bound .setState →
    s.currentState ≠ s.cfg.enc r → s.oq.length ≠ s.cfg.qDepth →
    exec (.setState (s.cfg.enc r :: more)) s = .next { s with
      previousState := s.currentState, currentState := s.cfg.enc r, stateEnterTimestamp := s.nowMs,
      currentExpressionId := exprOf r, expr := s.expr ++ [exprOf r],
      oq := s.oq ++ [statusRecord s (s.cfg.enc r) (exprOf r)] }

/-- R202: with a full queue the transition stands, by whatever caller, the status frame is dropped and `DIAG_QUEUE_FULL` is
raised. So does an accepted set-state request (R205); which byte is accepted under encodings other than the default is the
model's reading by the enumeration of R104 (log 20). -/
def Obligations.SetStateWithFullQueue : Prop :=
  ∀ (s : State) (r : RealState), s.currentState ≠ s.cfg.enc r → s.oq.length = s.cfg.qDepth →
    transition r s = { s with
      previousState := s.currentState, currentState := s.cfg.enc r, stateEnterTimestamp := s.nowMs,
      currentExpressionId := exprOf r, expr := s.expr ++ [exprOf r], diag := s.diag ++ [.queueFull s.cfg.statusCmd] } ∧
    (s.cfg.wf → s.dtab.get 0x07 = .bound .setState → ∀ more,
      exec (.setState (s.cfg.enc r :: more)) s = .next { s with
        previousState := s.currentState, currentState := s.cfg.enc r, stateEnterTimestamp := s.nowMs,
        currentExpressionId := exprOf r, expr := s.expr ++ [exprOf r],
        diag := s.diag ++ [.queueFull s.cfg.statusCmd] })

/-- R217, R205 (an inference the spec marks as its own): a transition into the state already held, by whatever caller, changes no
field and emits nothing; so a set-state request for the current state is accepted and has no effect. That a request for `enc r` is
accepted under every configuration is the model's reading of R205's "1 to 5" by the enumeration of R104 (log 20). -/
def Obligations.SelfTransitionChangesNothing : Prop :=
  ∀ (s : State) (r : RealState), s.currentState = s.cfg.enc r →
    transition r s = s ∧
    (s.cfg.wf → s.dtab.get 0x07 = .bound .setState → ∀ more, exec (.setState (s.cfg.enc r :: more)) s = .next s)

/-- R216, R201 (an inference the spec marks as its own): into each of the five real states, from another state and with room
in the queue, exactly one expression is pushed, the documented one, and exactly one status frame is queued with that state
and expression. -/
def Obligations.TransitionCoverage : Prop :=
  ∀ (s : State) (r : RealState), s.currentState ≠ s.cfg.enc r → s.oq.length ≠ s.cfg.qDepth →
    ∃ e rec, (transition r s).expr = s.expr ++ [e] ∧ (transition r s).oq = s.oq ++ [rec] ∧
      rec.payload[0]? = some (s.cfg.enc r) ∧ rec.payload[2]? = some e ∧
      e = (match r with | .sleep => 0x00 | .wake => 0x01 | .listen => 0x02 | .think => 0x03 | .talk => 0x04)

/-- R207 (an inference the spec marks as its own): the state-transition table: where `current_state` stands after each event,
for every state before. The rejected commands are R205's 0 and 6 to 255 under the default encodings; under others a command
is judged by the enumeration of R104, the model's reading (log 20). `e` is the elapsed time modulo 2^`TIME_W` (R211; log 5).
-/
def Obligations.StateTransitionTable : Prop :=
  ∀ (s : State), s.cfg.wf →
    (s.dtab.get 0x07 = .bound .setState → ∀ v more, ∃ t, exec (.setState (v :: more)) s = .next t ∧
      ((∃ r, s.cfg.enc r = v ∧ t.currentState = v) ∨ ((∀ r, s.cfg.enc r ≠ v) ∧ t.currentState = s.currentState))) ∧
    (∀ e : Nat, (e : Int) = ((s.nowMs : Int) - (s.stateEnterTimestamp : Int)) % 2 ^ s.cfg.timeW →
      s.running = true → 2000 ≤ e →
      (timerCheck s).currentState = if s.currentState = s.cfg.stWake then s.cfg.stListen else s.currentState) ∧
    (initOp s).currentState = s.cfg.stSleep

/-- R210, R211: the time-driven rule. `e` is the elapsed time modulo 2^`TIME_W`, which is R211's 2^32 by default; that
another `TIME_W` of R6 wraps at its own power of two is the model's reading (log 5). A `TIMER_CHECK` step in `WAKE`, running,
at an elapsed time of 2000 ms or more moves to `LISTEN` with the timestamp of this check; in every other case it changes
nothing but the sampled time. -/
def Obligations.TimerLeavesWake : Prop :=
  ∀ (s : State) (now : Time) (e : Nat) (ops : List Op), s.cfg.wf → s.pending = .timerCheck now :: ops →
    (e : Int) = ((now : Int) - (s.stateEnterTimestamp : Int)) % 2 ^ s.cfg.timeW →
    (s.running = true → s.currentState = s.cfg.stWake → 2000 ≤ e → s.oq.length ≠ s.cfg.qDepth →
      step s = .next { s with
        pending := ops, nowMs := now % 2 ^ s.cfg.timeW, previousState := s.cfg.stWake,
        currentState := s.cfg.stListen, stateEnterTimestamp := now % 2 ^ s.cfg.timeW, currentExpressionId := 0x02,
        expr := s.expr ++ [0x02], oq := s.oq ++ [statusRecord s s.cfg.stListen 0x02] }) ∧
    (s.running = true → s.currentState = s.cfg.stWake → 2000 ≤ e → s.oq.length = s.cfg.qDepth →
      step s = .next { s with
        pending := ops, nowMs := now % 2 ^ s.cfg.timeW, previousState := s.cfg.stWake,
        currentState := s.cfg.stListen, stateEnterTimestamp := now % 2 ^ s.cfg.timeW, currentExpressionId := 0x02,
        expr := s.expr ++ [0x02], diag := s.diag ++ [.queueFull s.cfg.statusCmd] }) ∧
    ((s.running = false ∨ s.currentState ≠ s.cfg.stWake ∨ e < 2000) →
      step s = .next { s with pending := ops, nowMs := now % 2 ^ s.cfg.timeW })

/-- R212, R213, R214: a setter step writes its own register and nothing else; a battery level above 100 is rejected with
`DIAG_BAD_BATTERY`. -/
def Obligations.SettersWriteTheirRegister : Prop :=
  ∀ (s : State) (ops : List Op), s.cfg.wf →
    (∀ v : Byte, s.pending = .host (.setBatteryLevel v) :: ops →
      (v.toNat ≤ 100 → step s = .next { s with pending := ops, batteryLevel := v }) ∧
      (100 < v.toNat → step s = .next { s with pending := ops, diag := s.diag ++ [.badBattery v] })) ∧
    (∀ h v : Half, s.pending = .host (.setServoAngles h v) :: ops →
      step s = .next { s with pending := ops, servoHAngle := h, servoVAngle := v }) ∧
    (∀ b : Bool, s.pending = .host (.setRunning b) :: ops → step s = .next { s with pending := ops, running := b })

/-- R215 with R200, R202, R217: an `INIT` step, from every state, binds set-state to the internal handler and no other entry,
sets `running`, and makes the transition to `SLEEP`: from another state (`IDLE` after reset) the real one, with its status frame
or, with a full queue, `DIAG_QUEUE_FULL`; in `SLEEP` already (a second `INIT`, U13) the no-op. -/
def Obligations.InitStep : Prop :=
  ∀ (s : State) (now : Time) (ops : List Op), s.cfg.wf → s.pending = .init now :: ops →
    ∃ d, d.get 0x07 = .bound .setState ∧ (∀ c, c ≠ 0x07 → d.get c = s.dtab.get c) ∧
      (s.currentState = s.cfg.stSleep →
        step s = .next { s with pending := ops, nowMs := now % 2 ^ s.cfg.timeW, dtab := d, running := true }) ∧
      (s.currentState ≠ s.cfg.stSleep → s.oq.length ≠ s.cfg.qDepth →
        step s = .next { s with
          pending := ops, nowMs := now % 2 ^ s.cfg.timeW, dtab := d, running := true,
          previousState := s.currentState, currentState := s.cfg.stSleep,
          stateEnterTimestamp := now % 2 ^ s.cfg.timeW, currentExpressionId := 0x00,
          expr := s.expr ++ [0x00], oq := s.oq ++ [statusRecord s s.cfg.stSleep 0x00] }) ∧
      (s.currentState ≠ s.cfg.stSleep → s.oq.length = s.cfg.qDepth →
        step s = .next { s with
          pending := ops, nowMs := now % 2 ^ s.cfg.timeW, dtab := d, running := true,
          previousState := s.currentState, currentState := s.cfg.stSleep,
          stateEnterTimestamp := now % 2 ^ s.cfg.timeW, currentExpressionId := 0x00,
          expr := s.expr ++ [0x00], diag := s.diag ++ [.queueFull s.cfg.statusCmd] })

/-- R204: `IDLE` is never entered by any step but `RESET`, and R35: a new value of `current_state` is a real state's. -/
def Obligations.IdleIsNeverReentered : Prop :=
  ∀ (s t : State), step s = .next t → NotReset s →
    t.currentState = s.currentState ∨ (t.currentState ≠ s.cfg.stIdle ∧ ∃ r, t.currentState = s.cfg.enc r)

/-- 20_memory.md R71, R200: over any step but `RESET` the four registers of a transition change together or not at all, with
one expression pushed, and the timestamp is the time sampled in that step. -/
def Obligations.TransitionRegistersChangeTogether : Prop :=
  ∀ (s t : State), step s = .next t → NotReset s →
    SameTransition s t ∨
    (t.currentState ≠ s.currentState ∧ t.previousState = s.currentState ∧ t.stateEnterTimestamp = t.nowMs ∧
      ∃ r, t.currentState = s.cfg.enc r ∧ t.currentExpressionId = exprOf r ∧ t.expr = s.expr ++ [exprOf r])

/-! Reset, the tick and the step (70_reset_and_hazards.md, 43_tick_loop.md). -/

/-- R300, 10_state.md R22: the reset values that the spec gives, in the state after reset under the default configuration. The
receive registers, which the spec leaves unspecified, are not stated. -/
def Obligations.ResetValues : Prop :=
  State.reset.inFrame = false ∧ State.reset.pos = 0 ∧ State.reset.oq = [] ∧
    (∀ c, State.reset.dtab.get c = .unbound) ∧ State.reset.currentState = 0 ∧ State.reset.previousState = 0 ∧
    State.reset.stateEnterTimestamp = 0 ∧ State.reset.batteryLevel = 100 ∧ State.reset.currentExpressionId = 0x00 ∧
    State.reset.servoHAngle = 0x005A ∧ State.reset.servoVAngle = 0x005A ∧ State.reset.running = false

/-- R300, R301: a `RESET` step puts every register the spec gives a reset value to it, from any state, and emits nothing: the
streams keep what was emitted. -/
def Obligations.ResetStep : Prop :=
  ∀ (s : State) (ops : List Op), s.cfg.wf → s.pending = .reset :: ops →
    ∃ t, step s = .next t ∧ t.inFrame = false ∧ t.pos = 0 ∧ t.oq = [] ∧ (∀ c, t.dtab.get c = .unbound) ∧
      t.currentState = s.cfg.stIdle ∧ t.previousState = s.cfg.stIdle ∧ t.stateEnterTimestamp = 0 ∧
      t.batteryLevel = s.cfg.batteryReset ∧ t.currentExpressionId = 0x00 ∧ t.servoHAngle = s.cfg.servoHReset ∧
      t.servoVAngle = s.cfg.servoVReset ∧ t.running = false ∧ t.tx = s.tx ∧ t.disp = s.disp ∧ t.expr = s.expr ∧
      t.diag = s.diag ∧ t.sendResults = s.sendResults ∧ t.cfg = s.cfg ∧ t.nowMs = s.nowMs ∧ t.pending = ops

/-- R303 (an inference the spec marks as its own): the state after `RESET` then `INIT` at any time `now`, which the 32-bit input
shows modulo 2^32, under the default configuration. -/
def Obligations.StateAfterResetThenInit : Prop :=
  ∀ (s u : State) (now : Time) (ops : List Op), s.cfg = Config.default → s.pending = .reset :: .init now :: ops →
    step s = .next u →
    ∃ t, step u = .next t ∧ t.inFrame = false ∧ t.pos = 0 ∧ t.dtab.get 0x07 = .bound .setState ∧
      (∀ c, c ≠ 0x07 → t.dtab.get c = .unbound) ∧ t.previousState = 0 ∧ t.currentState = 1 ∧
      t.stateEnterTimestamp = now % 2 ^ 32 ∧ t.batteryLevel = 100 ∧ t.currentExpressionId = 0x00 ∧ t.servoHAngle = 0x005A ∧
      t.servoVAngle = 0x005A ∧ t.running = true ∧
      t.oq.map serialize = [[0xAA, 0x07, 0x07, 0x00, 0x01, 0x64, 0x00, 0x5A, 0x00, 0x5A, 0x00, 0x2D]] ∧
      t.expr = s.expr ++ [0x00] ∧ t.tx = s.tx ∧ t.disp = s.disp ∧ t.diag = s.diag

/-- R240, R245: a `TICK` is, step for step, the items of its phase 1 in order (an `RX_BYTE` for each input byte, and the host
operations placed between them), then one `FLUSH`, then the host operations placed there, then one `TIMER_CHECK`. -/
def Obligations.TickRunsItsPhasesInOrder : Prop :=
  ∀ (s : State) (items : List TickItem) (before : List HostOp) (now : Time) (ops : List Op),
    runSteps (items.length + before.length + 2) { s with pending := .tick items before now :: ops } =
      runSteps (items.length + before.length + 2)
        { s with pending := items.map TickItem.toOp ++ .flush :: (before.map .host ++ .timerCheck now :: ops) }

/-- A `SEND` step of the host is `SEND` with its result handed back (R135, R264; the result stream is the model's own, log
4). -/
def Obligations.HostSendStep : Prop :=
  ∀ (s : State) (c : Byte) (p : List Byte) (ops : List Op), s.cfg.wf → s.pending = .host (.send c p) :: ops →
    step s = .next { (send c p { s with pending := ops }).1 with
      sendResults := s.sendResults ++ [(send c p { s with pending := ops }).2] }

/-- R242: an `RX_BYTE` step whose byte completes no frame does what `FEED` does; one that completes an invalid frame raises
`DIAG_CHECKSUM_MISMATCH` with the frame's fields and both checksums, and dispatches nothing; one that completes a valid frame
dispatches it. -/
def Obligations.RxByteStep : Prop :=
  ∀ (s u : State) (x : RxSample) (ops : List Op), s.cfg.wf → s.pending = .rxByte x :: ops →
    (feed x.byte { s with pending := ops, nowMs := x.now % 2 ^ s.cfg.timeW, reply := x.reply } = (u, none) →
      step s = .next u) ∧
    (∀ f, feed x.byte { s with pending := ops, nowMs := x.now % 2 ^ s.cfg.timeW, reply := x.reply } = (u, some f) →
      f.valid = false →
      step s = .next { u with diag := u.diag ++ [.checksumMismatch f.command f.length f.received f.computed] }) ∧
    (∀ f, feed x.byte { s with pending := ops, nowMs := x.now % 2 ^ s.cfg.timeW, reply := x.reply } = (u, some f) →
      f.valid = true → step s = .next (dispatch f.command f.payload u))

/-- R242, R163: when the bytes of the attempt in hand with the next input byte decode to an instruction, the step (of an
`RX_BYTE`, or of a `TICK` whose next item it is) is that instruction's `exec`, with the parser idle, the samples at the ports
and the operation off the schedule. -/
def Obligations.StepRunsDecodedInstruction : Prop :=
  ∀ (s : State) (x : RxSample) (i : Instr) (ops : List Op), s.cfg.wf → s.inFrame = true →
    s.pos.toNat = 4 + s.rxLength.toNat → decode s.cfg (heldBytes s ++ [x.byte]) = .ok i [] →
    (s.pending = .rxByte x :: ops →
      step s = exec i { s with inFrame := false, pos := 0, nowMs := x.now % 2 ^ s.cfg.timeW, reply := x.reply,
                               pending := ops }) ∧
    (∀ items before now, s.pending = .tick (.rx x :: items) before now :: ops →
      step s = exec i { s with inFrame := false, pos := 0, nowMs := x.now % 2 ^ s.cfg.timeW, reply := x.reply,
                               pending := .tick items before now :: ops })

/-- R134, R163, R242: the frame of a well-formed instruction, received byte by byte by an idle parser, runs that instruction in
the step of its last byte, in a state that differs from the one before only in the parser's registers, the ports and the
schedule. -/
def Obligations.FrameOnTheWireRunsItsInstruction : Prop :=
  ∀ (s : State) (i : Instr) (now : Time) (reply : List HandlerOp) (ops : List Op), s.cfg.wf → s.inFrame = false →
    i.wellFormed = true →
    s.pending = (encode s.cfg i).map (fun b => Op.rxByte ⟨b, now, reply⟩) ++ ops →
    ∃ u m, runSteps (i.payload.length + 4) s = .next u ∧ Memory.readFirst m i.payload.length = i.payload ∧
      step u = exec i { s with
        inFrame := false, pos := 0, rxCommand := s.cfg.cmd i.command,
        rxLength := lengthOf i.payload, rxbuf := m, nowMs := now % 2 ^ s.cfg.timeW, reply := reply, pending := ops }

/-- R246: under a legal configuration every step answers a next state: no operation faults, traps or hangs, and nothing is
refused; an ill-formed configuration is refused (93_implementation_defined.md U10). -/
def Obligations.NoStepStops : Prop :=
  ∀ s : State, (s.cfg.wf → ∃ t, step s = .next t) ∧ (¬ s.cfg.wf → step s = .refused .badConfiguration)

/-- 00_scope.md R15, 10_state.md R49: the four output streams are append-only, over every step, `RESET` included (R301). -/
def Obligations.StreamsAreAppendOnly : Prop :=
  ∀ (s t : State), step s = .next t →
    s.tx <+: t.tx ∧ s.disp <+: t.disp ∧ s.expr <+: t.expr ∧ s.diag <+: t.diag

/-- 60_exceptions.md R280 (an inference the spec marks as its own): what a byte of the wire peer can cause, with a
collaborator that replies nothing. An `RX_BYTE` step changes, beside the parser's registers, the ports and the schedule, no
more than this: no binding, value register, `running` or configuration; nothing on `TX`; at most one `DISP` event, to a route
that is bound to its command; at most one transition, with its one expression, and only if the internal handler is bound; at
most the status frame of that transition; at most one diagnostic, of codes 1 to 5 (R271). -/
def Obligations.WirePeerAuthority : Prop :=
  ∀ (s t : State) (b : Byte) (now : Time) (ops : List Op), s.pending = .rxByte ⟨b, now, []⟩ :: ops →
    step s = .next t →
    t.dtab = s.dtab ∧ SameValues s t ∧ t.running = s.running ∧ t.tx = s.tx ∧ t.sendResults = s.sendResults ∧
      t.cfg = s.cfg ∧ t.pending = ops ∧
      (t.disp = s.disp ∨ ∃ e, t.disp = s.disp ++ [e] ∧ s.dtab.get e.command = .bound (.ext e.route)) ∧
      ((SameTransition s t ∧ t.oq = s.oq) ∨
        ∃ r c, s.dtab.get c = .bound .setState ∧ t.previousState = s.currentState ∧ t.currentState = s.cfg.enc r ∧
          t.stateEnterTimestamp = t.nowMs ∧ t.currentExpressionId = exprOf r ∧ t.expr = s.expr ++ [exprOf r] ∧
          (t.oq = s.oq ∨ t.oq = s.oq ++ [statusRecord s (s.cfg.enc r) (exprOf r)])) ∧
      (t.diag = s.diag ∨ ∃ d, t.diag = s.diag ++ [d] ∧ 1 ≤ d.code.toNat ∧ d.code.toNat ≤ 5)

/-- R52 (an inference the spec marks as its own) at reset. -/
def Obligations.InvariantAtReset : Prop := Inv State.reset

/-- R52 (an inference the spec marks as its own): every step from a state that meets the invariants gives a state that meets
them. -/
def Obligations.StepKeepsInvariant : Prop := ∀ s t : State, Inv s → step s = .next t → Inv t
end

