-- ==== Sys2Proof/Laws/Checksum.lean ====
section
/-! SUPPORT. The checksum unit's equations and the byte-order helpers (40_frame_transport.md R120 to R122; 20_memory.md R65). -/

namespace Sys2Proof.Machine

@[simp] theorem afterByte_eq (b : Byte) (k : Byte → Byte) : afterByte b k = k b := by
  have h : BitVec.ofNat 8 b.toNat = b := BitVec.eq_of_toNat_eq (by simp)
  cases hb : b.toNat with
  | zero => simp only [afterByte, hb]; rw [hb] at h; exact congrArg k h
  | succ n => simp only [afterByte, hb]; rw [hb] at h; exact congrArg k h

@[simp] theorem crcShifts_zero (a : Byte) : crcShifts 0 a = a := rfl

theorem crcShifts_succ (n : Nat) (a : Byte) : crcShifts (n + 1) a = crcShifts n (crcShift a) := by
  simp [crcShifts]

@[simp] theorem crc8From_nil (acc : Byte) : crc8From acc [] = acc := rfl

@[simp] theorem crc8From_cons (acc b : Byte) (bs : List Byte) :
    crc8From acc (b :: bs) = crc8From (crc8Byte acc b) bs := by
  simp [crc8From]

theorem crc8From_append (acc : Byte) (xs ys : List Byte) :
    crc8From acc (xs ++ ys) = crc8From (crc8From acc xs) ys := by
  induction xs generalizing acc with
  | nil => rfl
  | cons x xs ih => simp [ih]

@[simp] theorem crc8_nil (cfg : Config) : crc8 cfg [] = cfg.crcInit := rfl

theorem crc8_append (cfg : Config) (xs ys : List Byte) :
    crc8 cfg (xs ++ ys) = crc8From (crc8 cfg xs) ys := crc8From_append _ _ _

/-- One shift is linear over exclusive-OR. -/
theorem crcShift_xor (a b : Byte) : crcShift (a ^^^ b) = crcShift a ^^^ crcShift b := by
  unfold crcShift
  rw [BitVec.getLsbD_xor, BitVec.shiftLeft_xor_distrib]
  have hx : ∀ x y z : Byte, x ^^^ y ^^^ z = (x ^^^ z) ^^^ y := by
    intro x y z; rw [BitVec.xor_assoc, BitVec.xor_comm y z, ← BitVec.xor_assoc]
  cases a.getLsbD 7 <;> cases b.getLsbD 7 <;> simp
  · rw [BitVec.xor_assoc]
  · exact hx _ _ _
  · rw [hx (a <<< 1) Config.crcPoly, ← BitVec.xor_assoc, BitVec.xor_assoc, BitVec.xor_self, BitVec.xor_zero]

theorem crcShifts_xor (n : Nat) (a b : Byte) : crcShifts n (a ^^^ b) = crcShifts n a ^^^ crcShifts n b := by
  induction n generalizing a b with
  | zero => rfl
  | succ n ih => simp [crcShifts_succ, crcShift_xor, ih]

/-- One shift loses nothing: its kernel is zero. -/
theorem crcShift_eq_zero {a : Byte} (h : crcShift a = 0) : a = 0 := by
  revert h; revert a; decide

theorem crcShifts_eq_zero (n : Nat) {a : Byte} (h : crcShifts n a = 0) : a = 0 := by
  induction n generalizing a with
  | zero => exact h
  | succ n ih => exact crcShift_eq_zero (ih (by simpa [crcShifts_succ] using h))

/-- Eight shifts are one-to-one. -/
theorem crcShifts_inj (n : Nat) {a b : Byte} (h : crcShifts n a = crcShifts n b) : a = b := by
  have h0 : crcShifts n (a ^^^ b) = 0 := by rw [crcShifts_xor, h, BitVec.xor_self]; rfl
  have h1 := crcShifts_eq_zero n h0
  exact BitVec.xor_eq_zero_iff.mp h1

@[simp] theorem crcShifts_of_zero (n : Nat) : crcShifts n 0#8 = 0#8 := by
  induction n with
  | zero => rfl
  | succ n ih => rw [crcShifts_succ, show crcShift 0#8 = 0#8 from by decide, ih]

/-- A running accumulator keeps two different values apart, whatever bytes follow. -/
theorem crc8From_inj (bs : List Byte) {a b : Byte} (h : crc8From a bs = crc8From b bs) : a = b := by
  induction bs generalizing a b with
  | nil => exact h
  | cons x bs ih =>
    rw [crc8From_cons, crc8From_cons] at h
    have := crcShifts_inj 8 (ih h)
    exact (BitVec.xor_left_inj x).mp this

/-! Byte order. -/

theorem lo8_toNat (h : Half) : (lo8 h).toNat = h.toNat % 256 := by simp [lo8]

theorem hi8_toNat (h : Half) : (hi8 h).toNat = h.toNat / 256 := by
  have := h.isLt
  simp [hi8, Nat.shiftRight_eq_div_pow]; omega

theorem le16_toNat (lo hi : Byte) : (le16 lo hi).toNat = lo.toNat + 256 * hi.toNat := by
  have := lo.isLt
  have := hi.isLt
  simp [le16]; omega

@[simp] theorem lo8_le16 (lo hi : Byte) : lo8 (le16 lo hi) = lo := by
  have := lo.isLt
  exact BitVec.eq_of_toNat_eq (by rw [lo8_toNat, le16_toNat]; omega)

@[simp] theorem hi8_le16 (lo hi : Byte) : hi8 (le16 lo hi) = hi := by
  have := lo.isLt
  exact BitVec.eq_of_toNat_eq (by rw [hi8_toNat, le16_toNat]; omega)

@[simp] theorem le16_lo_hi (h : Half) : le16 (lo8 h) (hi8 h) = h :=
  BitVec.eq_of_toNat_eq (by rw [le16_toNat, lo8_toNat, hi8_toNat]; omega)

/-- Within the frame format's range the length field is the payload's length. -/
theorem lengthOf_toNat {p : List Byte} (h : p.length ≤ 1024) : (lengthOf p).toNat = p.length := by
  simp [lengthOf]; omega

@[simp] theorem covered_length (c : Byte) (n : Half) (p : List Byte) : (covered c n p).length = p.length + 4 := by
  simp [covered]

@[simp] theorem frameBytes_length (cfg : Config) (c : Byte) (p : List Byte) :
    (frameBytes cfg c p).length = p.length + 5 := by
  simp [frameBytes]

end Sys2Proof.Machine
end

