-- ==== Sys2Proof/Laws/Config.lean ====
section
/-! SUPPORT. The command map and the state encoding of a well-formed configuration (30_encoding.md R95, R104). -/

namespace Sys2Proof.Config

theorem distinct_iff (l : List Byte) : distinct l = true ↔ l.Nodup := by
  induction l with
  | nil => simp [distinct]
  | cons b l ih => simp [distinct, ih]

/-- The check of a step is the constraints of a configuration. -/
theorem legal_iff (cfg : Config) : cfg.legal = true ↔ cfg.wf := by
  simp only [legal, Bool.and_eq_true, distinct_iff, decide_eq_true_eq, List.all_eq_true, wf, and_assoc]

theorem default_wf : default.wf := by decide

theorem mem_all (c : Command) : c ∈ Command.all := by cases c <;> decide

theorem mem_realAll (r : RealState) : r ∈ RealState.all := by cases r <;> decide

/-- A function that repeats no value on a list finds each member back by its value. -/
theorem find_of_nodup {α β : Type} [DecidableEq β] (f : α → β) (l : List α) (h : (l.map f).Nodup) {x : α}
    (hx : x ∈ l) : l.find? (fun y => f y = f x) = some x := by
  induction l with
  | nil => simp at hx
  | cons y l ih =>
    rw [List.map_cons, List.nodup_cons] at h
    by_cases hy : f y = f x
    · rcases List.mem_cons.mp hx with rfl | hx
      · simp
      · exact absurd (List.mem_map.mpr ⟨x, hx, hy.symm⟩) h.1
    · rcases List.mem_cons.mp hx with rfl | hx
      · exact absurd rfl hy
      · rw [List.find?_cons_of_neg (by simpa using hy)]; exact ih h.2 hx

theorem commandOf_cmd {cfg : Config} (h : cfg.wf) (c : Command) : cfg.commandOf (cfg.cmd c) = some c :=
  find_of_nodup cfg.cmd Command.all h.1 (mem_all c)

theorem cmd_of_commandOf {cfg : Config} {b : Byte} {c : Command} (h : cfg.commandOf b = some c) : cfg.cmd c = b := by
  simpa using List.find?_some h

theorem inCmdSet_cmd {cfg : Config} (h : cfg.wf) (c : Command) : cfg.inCmdSet (cfg.cmd c) = true := by
  simp [inCmdSet, commandOf_cmd h]

theorem realOf_enc {cfg : Config} (h : cfg.wf) (r : RealState) : cfg.realOf (cfg.enc r) = some r :=
  find_of_nodup cfg.enc RealState.all (List.nodup_cons.mp h.2.1).2 (mem_realAll r)

theorem enc_of_realOf {cfg : Config} {v : Byte} {r : RealState} (h : cfg.realOf v = some r) : cfg.enc r = v := by
  simpa using List.find?_some h

theorem enc_inj {cfg : Config} (h : cfg.wf) {r q : RealState} (e : cfg.enc r = cfg.enc q) : r = q := by
  have := realOf_enc h r
  rw [e, realOf_enc h q] at this
  exact (Option.some.inj this).symm

/-- No real state is encoded as `IDLE`. -/
theorem enc_ne_idle {cfg : Config} (h : cfg.wf) (r : RealState) : cfg.enc r ≠ cfg.stIdle := by
  intro e
  exact (List.nodup_cons.mp h.2.1).1 (List.mem_map.mpr ⟨r, mem_realAll r, e⟩)

end Sys2Proof.Config
end

