-- ==== Sys2Proof/Laws/Memory.lean ====
section
/-! SUPPORT. Reading after writing, and the canonical form, for `RXBUF` and `DTAB` (20_memory.md R60 to R62). -/

namespace Sys2Proof.Machine

namespace Memory

@[simp] theorem read_nil (a : Nat) : read [] a = unlisted a := rfl

theorem read_erase_self (m : Memory) (a : Nat) : (erase m a).read a = unlisted a := by
  induction m with
  | nil => rfl
  | cons c m ih =>
    obtain ⟨k, v⟩ := c
    by_cases h : k = a <;> simp_all [erase, read]

theorem read_erase_ne (m : Memory) {a b : Nat} (h : b ≠ a) : (erase m a).read b = m.read b := by
  induction m with
  | nil => rfl
  | cons c m ih =>
    obtain ⟨k, v⟩ := c
    by_cases hk : k = a
    · subst hk; simp_all [erase, read]; intro e; exact absurd e.symm h
    · simp_all [erase, read]

theorem read_insert (m : Memory) (a b : Nat) (v : Byte) (hm : ∀ c ∈ m, c.1 ≠ a) :
    (insert m a v).read b = if b = a then v else m.read b := by
  induction m with
  | nil => by_cases h : b = a <;> simp [insert, read, h]; intro e; exact absurd e.symm h
  | cons c m ih =>
    obtain ⟨k, w⟩ := c
    have hk : k ≠ a := hm (k, w) (by simp)
    have ih := ih (fun c hc => hm c (by simp [hc]))
    unfold insert
    split
    · by_cases h : b = a
      · simp [read, h]
      · have : ¬ a = b := fun e => h e.symm
        simp [read, h, this]
    · by_cases hkb : k = b
      · subst hkb; simp [read, hk]
      · simp [read, hkb, ih]

theorem erase_ne (m : Memory) (a : Nat) : ∀ c ∈ erase m a, c.1 ≠ a := by
  intro c hc; simp [erase] at hc; exact hc.2

/-- A read after a write gives the value written at its address and what was there before at every other. -/
theorem read_write (m : Memory) (a b : Nat) (v : Byte) :
    (m.write a v).read b = if b = a then v else m.read b := by
  unfold write
  split
  · by_cases h : b = a
    · subst h; simp [read_erase_self, *]
    · simp [h, read_erase_ne m h]
  · rw [read_insert _ _ _ _ (erase_ne m a)]
    by_cases h : b = a
    · simp [h]
    · simp [h, read_erase_ne m h]

@[simp] theorem read_write_self (m : Memory) (a : Nat) (v : Byte) : (m.write a v).read a = v := by
  simp [read_write]

theorem read_write_ne (m : Memory) {a b : Nat} (v : Byte) (h : b ≠ a) : (m.write a v).read b = m.read b := by
  simp [read_write, h]

theorem mem_insert {m : Memory} {a : Nat} {v : Byte} {c : Host.Cell} :
    c ∈ insert m a v ↔ c = (a, v) ∨ c ∈ m := by
  induction m with
  | nil => simp [insert]
  | cons d m ih =>
    obtain ⟨k, w⟩ := d
    unfold insert
    split
    · simp
    · simp [ih]; tauto

theorem mem_erase {m : Memory} {a : Nat} {c : Host.Cell} : c ∈ erase m a ↔ c ∈ m ∧ c.1 ≠ a := by
  simp [erase]

theorem wf_nil : wf [] := by simp [wf]

theorem wf_erase {m : Memory} (h : wf m) (a : Nat) : wf (erase m a) :=
  ⟨h.1.filter _, fun c hc => h.2 c (mem_erase.mp hc).1⟩

theorem pairwise_insert {m : Memory} (h : m.Pairwise (fun x y => x.1 < y.1)) {a : Nat} {v : Byte}
    (hm : ∀ c ∈ m, c.1 ≠ a) : (insert m a v).Pairwise (fun x y => x.1 < y.1) := by
  induction m with
  | nil => simp [insert]
  | cons d m ih =>
    obtain ⟨k, w⟩ := d
    have hk : k ≠ a := hm (k, w) (by simp)
    rw [List.pairwise_cons] at h
    unfold insert
    split
    next hlt =>
      refine List.pairwise_cons.mpr ⟨?_, List.pairwise_cons.mpr h⟩
      intro c hc
      rcases List.mem_cons.mp hc with rfl | hc
      · exact hlt
      · exact Nat.lt_trans hlt (h.1 c hc)
    next hge =>
      refine List.pairwise_cons.mpr ⟨?_, ih h.2 (fun c hc => hm c (by simp [hc]))⟩
      intro c hc
      rcases mem_insert.mp hc with rfl | hc
      · simp; omega
      · exact h.1 c hc

/-- Every write keeps the canonical form. -/
theorem wf_write {m : Memory} (h : wf m) (a : Nat) (v : Byte) : wf (m.write a v) := by
  unfold write
  split
  · exact wf_erase h a
  next hv =>
    refine ⟨pairwise_insert (wf_erase h a).1 (erase_ne m a), ?_⟩
    intro c hc
    rcases mem_insert.mp hc with rfl | hc
    · exact hv
    · exact (wf_erase h a).2 c hc

/-- A write lists no address but its own and those listed before. -/
theorem mem_write {m : Memory} {a : Nat} {v : Byte} {c : Host.Cell} (h : c ∈ m.write a v) :
    c = (a, v) ∨ c ∈ m := by
  unfold write at h
  split at h
  · exact .inr (mem_erase.mp h).1
  · rcases mem_insert.mp h with h | h
    · exact .inl h
    · exact .inr (mem_erase.mp h).1

@[simp] theorem readFirst_length (m : Memory) (n : Nat) : (m.readFirst n).length = n := by
  simp [readFirst]

theorem readFirst_succ (m : Memory) (n : Nat) : m.readFirst (n + 1) = m.readFirst n ++ [m.read n] := by
  simp [readFirst, List.range_succ]

/-- A write at or above `n` is not seen by a read of the first `n` bytes. -/
theorem readFirst_write_ge (m : Memory) {n a : Nat} (v : Byte) (h : n ≤ a) :
    (m.write a v).readFirst n = m.readFirst n := by
  apply List.map_congr_left
  intro i hi
  have := List.mem_range.mp hi
  exact read_write_ne m v (by omega)

end Memory

namespace Dtab

@[simp] theorem get_empty (c : Byte) : empty.get c = .unbound := by
  simp [get, empty]

@[simp] theorem get_put_self (t : Dtab) (c : Byte) (e : DtabEntry) : (t.put c e).get c = e := by
  simp [get, put]

theorem get_put_ne (t : Dtab) {c d : Byte} (e : DtabEntry) (h : d ≠ c) : (t.put c e).get d = t.get d := by
  have : c.toNat ≠ d.toNat := fun k => h (BitVec.eq_of_toNat_eq k.symm)
  simp [get, put, this]

theorem get_put (t : Dtab) (c d : Byte) (e : DtabEntry) :
    (t.put c e).get d = if d = c then e else t.get d := by
  by_cases h : d = c
  · simp [h]
  · simp [h, get_put_ne t e h]

end Dtab

end Sys2Proof.Machine
end

