-- ==== Sys2Proof/Laws/State.lean ====
section
/-! SUPPORT. One lemma per field per named update of the state, true by rfl, so that no proof unfolds an update. -/

namespace Sys2Proof.Machine.State

variable (s : State)

@[simp] theorem raise_cfg (d : Diag) : (s.raise d).cfg = s.cfg := rfl
@[simp] theorem raise_inFrame (d : Diag) : (s.raise d).inFrame = s.inFrame := rfl
@[simp] theorem raise_pos (d : Diag) : (s.raise d).pos = s.pos := rfl
@[simp] theorem raise_rxCommand (d : Diag) : (s.raise d).rxCommand = s.rxCommand := rfl
@[simp] theorem raise_rxLength (d : Diag) : (s.raise d).rxLength = s.rxLength := rfl
@[simp] theorem raise_rxbuf (d : Diag) : (s.raise d).rxbuf = s.rxbuf := rfl
@[simp] theorem raise_oq (d : Diag) : (s.raise d).oq = s.oq := rfl
@[simp] theorem raise_dtab (d : Diag) : (s.raise d).dtab = s.dtab := rfl
@[simp] theorem raise_currentState (d : Diag) : (s.raise d).currentState = s.currentState := rfl
@[simp] theorem raise_previousState (d : Diag) : (s.raise d).previousState = s.previousState := rfl
@[simp] theorem raise_stateEnterTimestamp (d : Diag) : (s.raise d).stateEnterTimestamp = s.stateEnterTimestamp := rfl
@[simp] theorem raise_batteryLevel (d : Diag) : (s.raise d).batteryLevel = s.batteryLevel := rfl
@[simp] theorem raise_currentExpressionId (d : Diag) : (s.raise d).currentExpressionId = s.currentExpressionId := rfl
@[simp] theorem raise_servoHAngle (d : Diag) : (s.raise d).servoHAngle = s.servoHAngle := rfl
@[simp] theorem raise_servoVAngle (d : Diag) : (s.raise d).servoVAngle = s.servoVAngle := rfl
@[simp] theorem raise_running (d : Diag) : (s.raise d).running = s.running := rfl
@[simp] theorem raise_nowMs (d : Diag) : (s.raise d).nowMs = s.nowMs := rfl
@[simp] theorem raise_reply (d : Diag) : (s.raise d).reply = s.reply := rfl
@[simp] theorem raise_pending (d : Diag) : (s.raise d).pending = s.pending := rfl
@[simp] theorem raise_tx (d : Diag) : (s.raise d).tx = s.tx := rfl
@[simp] theorem raise_disp (d : Diag) : (s.raise d).disp = s.disp := rfl
@[simp] theorem raise_expr (d : Diag) : (s.raise d).expr = s.expr := rfl
@[simp] theorem raise_diag (d : Diag) : (s.raise d).diag = s.diag ++ [d] := rfl
@[simp] theorem raise_sendResults (d : Diag) : (s.raise d).sendResults = s.sendResults := rfl

@[simp] theorem emitTx_cfg (bs : List Byte) : (s.emitTx bs).cfg = s.cfg := rfl
@[simp] theorem emitTx_inFrame (bs : List Byte) : (s.emitTx bs).inFrame = s.inFrame := rfl
@[simp] theorem emitTx_pos (bs : List Byte) : (s.emitTx bs).pos = s.pos := rfl
@[simp] theorem emitTx_rxCommand (bs : List Byte) : (s.emitTx bs).rxCommand = s.rxCommand := rfl
@[simp] theorem emitTx_rxLength (bs : List Byte) : (s.emitTx bs).rxLength = s.rxLength := rfl
@[simp] theorem emitTx_rxbuf (bs : List Byte) : (s.emitTx bs).rxbuf = s.rxbuf := rfl
@[simp] theorem emitTx_oq (bs : List Byte) : (s.emitTx bs).oq = s.oq := rfl
@[simp] theorem emitTx_dtab (bs : List Byte) : (s.emitTx bs).dtab = s.dtab := rfl
@[simp] theorem emitTx_currentState (bs : List Byte) : (s.emitTx bs).currentState = s.currentState := rfl
@[simp] theorem emitTx_previousState (bs : List Byte) : (s.emitTx bs).previousState = s.previousState := rfl
@[simp] theorem emitTx_stateEnterTimestamp (bs : List Byte) : (s.emitTx bs).stateEnterTimestamp = s.stateEnterTimestamp := rfl
@[simp] theorem emitTx_batteryLevel (bs : List Byte) : (s.emitTx bs).batteryLevel = s.batteryLevel := rfl
@[simp] theorem emitTx_currentExpressionId (bs : List Byte) : (s.emitTx bs).currentExpressionId = s.currentExpressionId := rfl
@[simp] theorem emitTx_servoHAngle (bs : List Byte) : (s.emitTx bs).servoHAngle = s.servoHAngle := rfl
@[simp] theorem emitTx_servoVAngle (bs : List Byte) : (s.emitTx bs).servoVAngle = s.servoVAngle := rfl
@[simp] theorem emitTx_running (bs : List Byte) : (s.emitTx bs).running = s.running := rfl
@[simp] theorem emitTx_nowMs (bs : List Byte) : (s.emitTx bs).nowMs = s.nowMs := rfl
@[simp] theorem emitTx_reply (bs : List Byte) : (s.emitTx bs).reply = s.reply := rfl
@[simp] theorem emitTx_pending (bs : List Byte) : (s.emitTx bs).pending = s.pending := rfl
@[simp] theorem emitTx_tx (bs : List Byte) : (s.emitTx bs).tx = s.tx ++ bs := rfl
@[simp] theorem emitTx_disp (bs : List Byte) : (s.emitTx bs).disp = s.disp := rfl
@[simp] theorem emitTx_expr (bs : List Byte) : (s.emitTx bs).expr = s.expr := rfl
@[simp] theorem emitTx_diag (bs : List Byte) : (s.emitTx bs).diag = s.diag := rfl
@[simp] theorem emitTx_sendResults (bs : List Byte) : (s.emitTx bs).sendResults = s.sendResults := rfl

@[simp] theorem emitExpr_cfg (e : Byte) : (s.emitExpr e).cfg = s.cfg := rfl
@[simp] theorem emitExpr_inFrame (e : Byte) : (s.emitExpr e).inFrame = s.inFrame := rfl
@[simp] theorem emitExpr_pos (e : Byte) : (s.emitExpr e).pos = s.pos := rfl
@[simp] theorem emitExpr_rxCommand (e : Byte) : (s.emitExpr e).rxCommand = s.rxCommand := rfl
@[simp] theorem emitExpr_rxLength (e : Byte) : (s.emitExpr e).rxLength = s.rxLength := rfl
@[simp] theorem emitExpr_rxbuf (e : Byte) : (s.emitExpr e).rxbuf = s.rxbuf := rfl
@[simp] theorem emitExpr_oq (e : Byte) : (s.emitExpr e).oq = s.oq := rfl
@[simp] theorem emitExpr_dtab (e : Byte) : (s.emitExpr e).dtab = s.dtab := rfl
@[simp] theorem emitExpr_currentState (e : Byte) : (s.emitExpr e).currentState = s.currentState := rfl
@[simp] theorem emitExpr_previousState (e : Byte) : (s.emitExpr e).previousState = s.previousState := rfl
@[simp] theorem emitExpr_stateEnterTimestamp (e : Byte) : (s.emitExpr e).stateEnterTimestamp = s.stateEnterTimestamp := rfl
@[simp] theorem emitExpr_batteryLevel (e : Byte) : (s.emitExpr e).batteryLevel = s.batteryLevel := rfl
@[simp] theorem emitExpr_currentExpressionId (e : Byte) : (s.emitExpr e).currentExpressionId = s.currentExpressionId := rfl
@[simp] theorem emitExpr_servoHAngle (e : Byte) : (s.emitExpr e).servoHAngle = s.servoHAngle := rfl
@[simp] theorem emitExpr_servoVAngle (e : Byte) : (s.emitExpr e).servoVAngle = s.servoVAngle := rfl
@[simp] theorem emitExpr_running (e : Byte) : (s.emitExpr e).running = s.running := rfl
@[simp] theorem emitExpr_nowMs (e : Byte) : (s.emitExpr e).nowMs = s.nowMs := rfl
@[simp] theorem emitExpr_reply (e : Byte) : (s.emitExpr e).reply = s.reply := rfl
@[simp] theorem emitExpr_pending (e : Byte) : (s.emitExpr e).pending = s.pending := rfl
@[simp] theorem emitExpr_tx (e : Byte) : (s.emitExpr e).tx = s.tx := rfl
@[simp] theorem emitExpr_disp (e : Byte) : (s.emitExpr e).disp = s.disp := rfl
@[simp] theorem emitExpr_expr (e : Byte) : (s.emitExpr e).expr = s.expr ++ [e] := rfl
@[simp] theorem emitExpr_diag (e : Byte) : (s.emitExpr e).diag = s.diag := rfl
@[simp] theorem emitExpr_sendResults (e : Byte) : (s.emitExpr e).sendResults = s.sendResults := rfl

@[simp] theorem emitDisp_cfg (e : DispEvent) : (s.emitDisp e).cfg = s.cfg := rfl
@[simp] theorem emitDisp_inFrame (e : DispEvent) : (s.emitDisp e).inFrame = s.inFrame := rfl
@[simp] theorem emitDisp_pos (e : DispEvent) : (s.emitDisp e).pos = s.pos := rfl
@[simp] theorem emitDisp_rxCommand (e : DispEvent) : (s.emitDisp e).rxCommand = s.rxCommand := rfl
@[simp] theorem emitDisp_rxLength (e : DispEvent) : (s.emitDisp e).rxLength = s.rxLength := rfl
@[simp] theorem emitDisp_rxbuf (e : DispEvent) : (s.emitDisp e).rxbuf = s.rxbuf := rfl
@[simp] theorem emitDisp_oq (e : DispEvent) : (s.emitDisp e).oq = s.oq := rfl
@[simp] theorem emitDisp_dtab (e : DispEvent) : (s.emitDisp e).dtab = s.dtab := rfl
@[simp] theorem emitDisp_currentState (e : DispEvent) : (s.emitDisp e).currentState = s.currentState := rfl
@[simp] theorem emitDisp_previousState (e : DispEvent) : (s.emitDisp e).previousState = s.previousState := rfl
@[simp] theorem emitDisp_stateEnterTimestamp (e : DispEvent) : (s.emitDisp e).stateEnterTimestamp = s.stateEnterTimestamp := rfl
@[simp] theorem emitDisp_batteryLevel (e : DispEvent) : (s.emitDisp e).batteryLevel = s.batteryLevel := rfl
@[simp] theorem emitDisp_currentExpressionId (e : DispEvent) : (s.emitDisp e).currentExpressionId = s.currentExpressionId := rfl
@[simp] theorem emitDisp_servoHAngle (e : DispEvent) : (s.emitDisp e).servoHAngle = s.servoHAngle := rfl
@[simp] theorem emitDisp_servoVAngle (e : DispEvent) : (s.emitDisp e).servoVAngle = s.servoVAngle := rfl
@[simp] theorem emitDisp_running (e : DispEvent) : (s.emitDisp e).running = s.running := rfl
@[simp] theorem emitDisp_nowMs (e : DispEvent) : (s.emitDisp e).nowMs = s.nowMs := rfl
@[simp] theorem emitDisp_reply (e : DispEvent) : (s.emitDisp e).reply = s.reply := rfl
@[simp] theorem emitDisp_pending (e : DispEvent) : (s.emitDisp e).pending = s.pending := rfl
@[simp] theorem emitDisp_tx (e : DispEvent) : (s.emitDisp e).tx = s.tx := rfl
@[simp] theorem emitDisp_disp (e : DispEvent) : (s.emitDisp e).disp = s.disp ++ [e] := rfl
@[simp] theorem emitDisp_expr (e : DispEvent) : (s.emitDisp e).expr = s.expr := rfl
@[simp] theorem emitDisp_diag (e : DispEvent) : (s.emitDisp e).diag = s.diag := rfl
@[simp] theorem emitDisp_sendResults (e : DispEvent) : (s.emitDisp e).sendResults = s.sendResults := rfl

@[simp] theorem answerSend_cfg (r : SendResult) : (s.answerSend r).cfg = s.cfg := rfl
@[simp] theorem answerSend_inFrame (r : SendResult) : (s.answerSend r).inFrame = s.inFrame := rfl
@[simp] theorem answerSend_pos (r : SendResult) : (s.answerSend r).pos = s.pos := rfl
@[simp] theorem answerSend_rxCommand (r : SendResult) : (s.answerSend r).rxCommand = s.rxCommand := rfl
@[simp] theorem answerSend_rxLength (r : SendResult) : (s.answerSend r).rxLength = s.rxLength := rfl
@[simp] theorem answerSend_rxbuf (r : SendResult) : (s.answerSend r).rxbuf = s.rxbuf := rfl
@[simp] theorem answerSend_oq (r : SendResult) : (s.answerSend r).oq = s.oq := rfl
@[simp] theorem answerSend_dtab (r : SendResult) : (s.answerSend r).dtab = s.dtab := rfl
@[simp] theorem answerSend_currentState (r : SendResult) : (s.answerSend r).currentState = s.currentState := rfl
@[simp] theorem answerSend_previousState (r : SendResult) : (s.answerSend r).previousState = s.previousState := rfl
@[simp] theorem answerSend_stateEnterTimestamp (r : SendResult) : (s.answerSend r).stateEnterTimestamp = s.stateEnterTimestamp := rfl
@[simp] theorem answerSend_batteryLevel (r : SendResult) : (s.answerSend r).batteryLevel = s.batteryLevel := rfl
@[simp] theorem answerSend_currentExpressionId (r : SendResult) : (s.answerSend r).currentExpressionId = s.currentExpressionId := rfl
@[simp] theorem answerSend_servoHAngle (r : SendResult) : (s.answerSend r).servoHAngle = s.servoHAngle := rfl
@[simp] theorem answerSend_servoVAngle (r : SendResult) : (s.answerSend r).servoVAngle = s.servoVAngle := rfl
@[simp] theorem answerSend_running (r : SendResult) : (s.answerSend r).running = s.running := rfl
@[simp] theorem answerSend_nowMs (r : SendResult) : (s.answerSend r).nowMs = s.nowMs := rfl
@[simp] theorem answerSend_reply (r : SendResult) : (s.answerSend r).reply = s.reply := rfl
@[simp] theorem answerSend_pending (r : SendResult) : (s.answerSend r).pending = s.pending := rfl
@[simp] theorem answerSend_tx (r : SendResult) : (s.answerSend r).tx = s.tx := rfl
@[simp] theorem answerSend_disp (r : SendResult) : (s.answerSend r).disp = s.disp := rfl
@[simp] theorem answerSend_expr (r : SendResult) : (s.answerSend r).expr = s.expr := rfl
@[simp] theorem answerSend_diag (r : SendResult) : (s.answerSend r).diag = s.diag := rfl
@[simp] theorem answerSend_sendResults (r : SendResult) : (s.answerSend r).sendResults = s.sendResults ++ [r] := rfl

@[simp] theorem toIdle_cfg : (s.toIdle).cfg = s.cfg := rfl
@[simp] theorem toIdle_inFrame : (s.toIdle).inFrame = false := rfl
@[simp] theorem toIdle_pos : (s.toIdle).pos = 0 := rfl
@[simp] theorem toIdle_rxCommand : (s.toIdle).rxCommand = s.rxCommand := rfl
@[simp] theorem toIdle_rxLength : (s.toIdle).rxLength = s.rxLength := rfl
@[simp] theorem toIdle_rxbuf : (s.toIdle).rxbuf = s.rxbuf := rfl
@[simp] theorem toIdle_oq : (s.toIdle).oq = s.oq := rfl
@[simp] theorem toIdle_dtab : (s.toIdle).dtab = s.dtab := rfl
@[simp] theorem toIdle_currentState : (s.toIdle).currentState = s.currentState := rfl
@[simp] theorem toIdle_previousState : (s.toIdle).previousState = s.previousState := rfl
@[simp] theorem toIdle_stateEnterTimestamp : (s.toIdle).stateEnterTimestamp = s.stateEnterTimestamp := rfl
@[simp] theorem toIdle_batteryLevel : (s.toIdle).batteryLevel = s.batteryLevel := rfl
@[simp] theorem toIdle_currentExpressionId : (s.toIdle).currentExpressionId = s.currentExpressionId := rfl
@[simp] theorem toIdle_servoHAngle : (s.toIdle).servoHAngle = s.servoHAngle := rfl
@[simp] theorem toIdle_servoVAngle : (s.toIdle).servoVAngle = s.servoVAngle := rfl
@[simp] theorem toIdle_running : (s.toIdle).running = s.running := rfl
@[simp] theorem toIdle_nowMs : (s.toIdle).nowMs = s.nowMs := rfl
@[simp] theorem toIdle_reply : (s.toIdle).reply = s.reply := rfl
@[simp] theorem toIdle_pending : (s.toIdle).pending = s.pending := rfl
@[simp] theorem toIdle_tx : (s.toIdle).tx = s.tx := rfl
@[simp] theorem toIdle_disp : (s.toIdle).disp = s.disp := rfl
@[simp] theorem toIdle_expr : (s.toIdle).expr = s.expr := rfl
@[simp] theorem toIdle_diag : (s.toIdle).diag = s.diag := rfl
@[simp] theorem toIdle_sendResults : (s.toIdle).sendResults = s.sendResults := rfl

@[simp] theorem atPos_cfg (k : Nat) : (s.atPos k).cfg = s.cfg := rfl
@[simp] theorem atPos_inFrame (k : Nat) : (s.atPos k).inFrame = true := rfl
@[simp] theorem atPos_pos (k : Nat) : (s.atPos k).pos = BitVec.ofNat 11 k := rfl
@[simp] theorem atPos_rxCommand (k : Nat) : (s.atPos k).rxCommand = s.rxCommand := rfl
@[simp] theorem atPos_rxLength (k : Nat) : (s.atPos k).rxLength = s.rxLength := rfl
@[simp] theorem atPos_rxbuf (k : Nat) : (s.atPos k).rxbuf = s.rxbuf := rfl
@[simp] theorem atPos_oq (k : Nat) : (s.atPos k).oq = s.oq := rfl
@[simp] theorem atPos_dtab (k : Nat) : (s.atPos k).dtab = s.dtab := rfl
@[simp] theorem atPos_currentState (k : Nat) : (s.atPos k).currentState = s.currentState := rfl
@[simp] theorem atPos_previousState (k : Nat) : (s.atPos k).previousState = s.previousState := rfl
@[simp] theorem atPos_stateEnterTimestamp (k : Nat) : (s.atPos k).stateEnterTimestamp = s.stateEnterTimestamp := rfl
@[simp] theorem atPos_batteryLevel (k : Nat) : (s.atPos k).batteryLevel = s.batteryLevel := rfl
@[simp] theorem atPos_currentExpressionId (k : Nat) : (s.atPos k).currentExpressionId = s.currentExpressionId := rfl
@[simp] theorem atPos_servoHAngle (k : Nat) : (s.atPos k).servoHAngle = s.servoHAngle := rfl
@[simp] theorem atPos_servoVAngle (k : Nat) : (s.atPos k).servoVAngle = s.servoVAngle := rfl
@[simp] theorem atPos_running (k : Nat) : (s.atPos k).running = s.running := rfl
@[simp] theorem atPos_nowMs (k : Nat) : (s.atPos k).nowMs = s.nowMs := rfl
@[simp] theorem atPos_reply (k : Nat) : (s.atPos k).reply = s.reply := rfl
@[simp] theorem atPos_pending (k : Nat) : (s.atPos k).pending = s.pending := rfl
@[simp] theorem atPos_tx (k : Nat) : (s.atPos k).tx = s.tx := rfl
@[simp] theorem atPos_disp (k : Nat) : (s.atPos k).disp = s.disp := rfl
@[simp] theorem atPos_expr (k : Nat) : (s.atPos k).expr = s.expr := rfl
@[simp] theorem atPos_diag (k : Nat) : (s.atPos k).diag = s.diag := rfl
@[simp] theorem atPos_sendResults (k : Nat) : (s.atPos k).sendResults = s.sendResults := rfl

@[simp] theorem withCommand_cfg (b : Byte) : (s.withCommand b).cfg = s.cfg := rfl
@[simp] theorem withCommand_inFrame (b : Byte) : (s.withCommand b).inFrame = s.inFrame := rfl
@[simp] theorem withCommand_pos (b : Byte) : (s.withCommand b).pos = s.pos := rfl
@[simp] theorem withCommand_rxCommand (b : Byte) : (s.withCommand b).rxCommand = b := rfl
@[simp] theorem withCommand_rxLength (b : Byte) : (s.withCommand b).rxLength = s.rxLength := rfl
@[simp] theorem withCommand_rxbuf (b : Byte) : (s.withCommand b).rxbuf = s.rxbuf := rfl
@[simp] theorem withCommand_oq (b : Byte) : (s.withCommand b).oq = s.oq := rfl
@[simp] theorem withCommand_dtab (b : Byte) : (s.withCommand b).dtab = s.dtab := rfl
@[simp] theorem withCommand_currentState (b : Byte) : (s.withCommand b).currentState = s.currentState := rfl
@[simp] theorem withCommand_previousState (b : Byte) : (s.withCommand b).previousState = s.previousState := rfl
@[simp] theorem withCommand_stateEnterTimestamp (b : Byte) : (s.withCommand b).stateEnterTimestamp = s.stateEnterTimestamp := rfl
@[simp] theorem withCommand_batteryLevel (b : Byte) : (s.withCommand b).batteryLevel = s.batteryLevel := rfl
@[simp] theorem withCommand_currentExpressionId (b : Byte) : (s.withCommand b).currentExpressionId = s.currentExpressionId := rfl
@[simp] theorem withCommand_servoHAngle (b : Byte) : (s.withCommand b).servoHAngle = s.servoHAngle := rfl
@[simp] theorem withCommand_servoVAngle (b : Byte) : (s.withCommand b).servoVAngle = s.servoVAngle := rfl
@[simp] theorem withCommand_running (b : Byte) : (s.withCommand b).running = s.running := rfl
@[simp] theorem withCommand_nowMs (b : Byte) : (s.withCommand b).nowMs = s.nowMs := rfl
@[simp] theorem withCommand_reply (b : Byte) : (s.withCommand b).reply = s.reply := rfl
@[simp] theorem withCommand_pending (b : Byte) : (s.withCommand b).pending = s.pending := rfl
@[simp] theorem withCommand_tx (b : Byte) : (s.withCommand b).tx = s.tx := rfl
@[simp] theorem withCommand_disp (b : Byte) : (s.withCommand b).disp = s.disp := rfl
@[simp] theorem withCommand_expr (b : Byte) : (s.withCommand b).expr = s.expr := rfl
@[simp] theorem withCommand_diag (b : Byte) : (s.withCommand b).diag = s.diag := rfl
@[simp] theorem withCommand_sendResults (b : Byte) : (s.withCommand b).sendResults = s.sendResults := rfl

@[simp] theorem withLength_cfg (n : Half) : (s.withLength n).cfg = s.cfg := rfl
@[simp] theorem withLength_inFrame (n : Half) : (s.withLength n).inFrame = s.inFrame := rfl
@[simp] theorem withLength_pos (n : Half) : (s.withLength n).pos = s.pos := rfl
@[simp] theorem withLength_rxCommand (n : Half) : (s.withLength n).rxCommand = s.rxCommand := rfl
@[simp] theorem withLength_rxLength (n : Half) : (s.withLength n).rxLength = n := rfl
@[simp] theorem withLength_rxbuf (n : Half) : (s.withLength n).rxbuf = s.rxbuf := rfl
@[simp] theorem withLength_oq (n : Half) : (s.withLength n).oq = s.oq := rfl
@[simp] theorem withLength_dtab (n : Half) : (s.withLength n).dtab = s.dtab := rfl
@[simp] theorem withLength_currentState (n : Half) : (s.withLength n).currentState = s.currentState := rfl
@[simp] theorem withLength_previousState (n : Half) : (s.withLength n).previousState = s.previousState := rfl
@[simp] theorem withLength_stateEnterTimestamp (n : Half) : (s.withLength n).stateEnterTimestamp = s.stateEnterTimestamp := rfl
@[simp] theorem withLength_batteryLevel (n : Half) : (s.withLength n).batteryLevel = s.batteryLevel := rfl
@[simp] theorem withLength_currentExpressionId (n : Half) : (s.withLength n).currentExpressionId = s.currentExpressionId := rfl
@[simp] theorem withLength_servoHAngle (n : Half) : (s.withLength n).servoHAngle = s.servoHAngle := rfl
@[simp] theorem withLength_servoVAngle (n : Half) : (s.withLength n).servoVAngle = s.servoVAngle := rfl
@[simp] theorem withLength_running (n : Half) : (s.withLength n).running = s.running := rfl
@[simp] theorem withLength_nowMs (n : Half) : (s.withLength n).nowMs = s.nowMs := rfl
@[simp] theorem withLength_reply (n : Half) : (s.withLength n).reply = s.reply := rfl
@[simp] theorem withLength_pending (n : Half) : (s.withLength n).pending = s.pending := rfl
@[simp] theorem withLength_tx (n : Half) : (s.withLength n).tx = s.tx := rfl
@[simp] theorem withLength_disp (n : Half) : (s.withLength n).disp = s.disp := rfl
@[simp] theorem withLength_expr (n : Half) : (s.withLength n).expr = s.expr := rfl
@[simp] theorem withLength_diag (n : Half) : (s.withLength n).diag = s.diag := rfl
@[simp] theorem withLength_sendResults (n : Half) : (s.withLength n).sendResults = s.sendResults := rfl

@[simp] theorem storeRx_cfg (i : Nat) (b : Byte) : (s.storeRx i b).cfg = s.cfg := rfl
@[simp] theorem storeRx_inFrame (i : Nat) (b : Byte) : (s.storeRx i b).inFrame = s.inFrame := rfl
@[simp] theorem storeRx_pos (i : Nat) (b : Byte) : (s.storeRx i b).pos = s.pos := rfl
@[simp] theorem storeRx_rxCommand (i : Nat) (b : Byte) : (s.storeRx i b).rxCommand = s.rxCommand := rfl
@[simp] theorem storeRx_rxLength (i : Nat) (b : Byte) : (s.storeRx i b).rxLength = s.rxLength := rfl
@[simp] theorem storeRx_rxbuf (i : Nat) (b : Byte) : (s.storeRx i b).rxbuf = s.rxbuf.write i b := rfl
@[simp] theorem storeRx_oq (i : Nat) (b : Byte) : (s.storeRx i b).oq = s.oq := rfl
@[simp] theorem storeRx_dtab (i : Nat) (b : Byte) : (s.storeRx i b).dtab = s.dtab := rfl
@[simp] theorem storeRx_currentState (i : Nat) (b : Byte) : (s.storeRx i b).currentState = s.currentState := rfl
@[simp] theorem storeRx_previousState (i : Nat) (b : Byte) : (s.storeRx i b).previousState = s.previousState := rfl
@[simp] theorem storeRx_stateEnterTimestamp (i : Nat) (b : Byte) : (s.storeRx i b).stateEnterTimestamp = s.stateEnterTimestamp := rfl
@[simp] theorem storeRx_batteryLevel (i : Nat) (b : Byte) : (s.storeRx i b).batteryLevel = s.batteryLevel := rfl
@[simp] theorem storeRx_currentExpressionId (i : Nat) (b : Byte) : (s.storeRx i b).currentExpressionId = s.currentExpressionId := rfl
@[simp] theorem storeRx_servoHAngle (i : Nat) (b : Byte) : (s.storeRx i b).servoHAngle = s.servoHAngle := rfl
@[simp] theorem storeRx_servoVAngle (i : Nat) (b : Byte) : (s.storeRx i b).servoVAngle = s.servoVAngle := rfl
@[simp] theorem storeRx_running (i : Nat) (b : Byte) : (s.storeRx i b).running = s.running := rfl
@[simp] theorem storeRx_nowMs (i : Nat) (b : Byte) : (s.storeRx i b).nowMs = s.nowMs := rfl
@[simp] theorem storeRx_reply (i : Nat) (b : Byte) : (s.storeRx i b).reply = s.reply := rfl
@[simp] theorem storeRx_pending (i : Nat) (b : Byte) : (s.storeRx i b).pending = s.pending := rfl
@[simp] theorem storeRx_tx (i : Nat) (b : Byte) : (s.storeRx i b).tx = s.tx := rfl
@[simp] theorem storeRx_disp (i : Nat) (b : Byte) : (s.storeRx i b).disp = s.disp := rfl
@[simp] theorem storeRx_expr (i : Nat) (b : Byte) : (s.storeRx i b).expr = s.expr := rfl
@[simp] theorem storeRx_diag (i : Nat) (b : Byte) : (s.storeRx i b).diag = s.diag := rfl
@[simp] theorem storeRx_sendResults (i : Nat) (b : Byte) : (s.storeRx i b).sendResults = s.sendResults := rfl

@[simp] theorem setEntry_cfg (c : Byte) (e : DtabEntry) : (s.setEntry c e).cfg = s.cfg := rfl
@[simp] theorem setEntry_inFrame (c : Byte) (e : DtabEntry) : (s.setEntry c e).inFrame = s.inFrame := rfl
@[simp] theorem setEntry_pos (c : Byte) (e : DtabEntry) : (s.setEntry c e).pos = s.pos := rfl
@[simp] theorem setEntry_rxCommand (c : Byte) (e : DtabEntry) : (s.setEntry c e).rxCommand = s.rxCommand := rfl
@[simp] theorem setEntry_rxLength (c : Byte) (e : DtabEntry) : (s.setEntry c e).rxLength = s.rxLength := rfl
@[simp] theorem setEntry_rxbuf (c : Byte) (e : DtabEntry) : (s.setEntry c e).rxbuf = s.rxbuf := rfl
@[simp] theorem setEntry_oq (c : Byte) (e : DtabEntry) : (s.setEntry c e).oq = s.oq := rfl
@[simp] theorem setEntry_dtab (c : Byte) (e : DtabEntry) : (s.setEntry c e).dtab = s.dtab.put c e := rfl
@[simp] theorem setEntry_currentState (c : Byte) (e : DtabEntry) : (s.setEntry c e).currentState = s.currentState := rfl
@[simp] theorem setEntry_previousState (c : Byte) (e : DtabEntry) : (s.setEntry c e).previousState = s.previousState := rfl
@[simp] theorem setEntry_stateEnterTimestamp (c : Byte) (e : DtabEntry) : (s.setEntry c e).stateEnterTimestamp = s.stateEnterTimestamp := rfl
@[simp] theorem setEntry_batteryLevel (c : Byte) (e : DtabEntry) : (s.setEntry c e).batteryLevel = s.batteryLevel := rfl
@[simp] theorem setEntry_currentExpressionId (c : Byte) (e : DtabEntry) : (s.setEntry c e).currentExpressionId = s.currentExpressionId := rfl
@[simp] theorem setEntry_servoHAngle (c : Byte) (e : DtabEntry) : (s.setEntry c e).servoHAngle = s.servoHAngle := rfl
@[simp] theorem setEntry_servoVAngle (c : Byte) (e : DtabEntry) : (s.setEntry c e).servoVAngle = s.servoVAngle := rfl
@[simp] theorem setEntry_running (c : Byte) (e : DtabEntry) : (s.setEntry c e).running = s.running := rfl
@[simp] theorem setEntry_nowMs (c : Byte) (e : DtabEntry) : (s.setEntry c e).nowMs = s.nowMs := rfl
@[simp] theorem setEntry_reply (c : Byte) (e : DtabEntry) : (s.setEntry c e).reply = s.reply := rfl
@[simp] theorem setEntry_pending (c : Byte) (e : DtabEntry) : (s.setEntry c e).pending = s.pending := rfl
@[simp] theorem setEntry_tx (c : Byte) (e : DtabEntry) : (s.setEntry c e).tx = s.tx := rfl
@[simp] theorem setEntry_disp (c : Byte) (e : DtabEntry) : (s.setEntry c e).disp = s.disp := rfl
@[simp] theorem setEntry_expr (c : Byte) (e : DtabEntry) : (s.setEntry c e).expr = s.expr := rfl
@[simp] theorem setEntry_diag (c : Byte) (e : DtabEntry) : (s.setEntry c e).diag = s.diag := rfl
@[simp] theorem setEntry_sendResults (c : Byte) (e : DtabEntry) : (s.setEntry c e).sendResults = s.sendResults := rfl

@[simp] theorem enqueue_cfg (r : FrameRec) : (s.enqueue r).cfg = s.cfg := rfl
@[simp] theorem enqueue_inFrame (r : FrameRec) : (s.enqueue r).inFrame = s.inFrame := rfl
@[simp] theorem enqueue_pos (r : FrameRec) : (s.enqueue r).pos = s.pos := rfl
@[simp] theorem enqueue_rxCommand (r : FrameRec) : (s.enqueue r).rxCommand = s.rxCommand := rfl
@[simp] theorem enqueue_rxLength (r : FrameRec) : (s.enqueue r).rxLength = s.rxLength := rfl
@[simp] theorem enqueue_rxbuf (r : FrameRec) : (s.enqueue r).rxbuf = s.rxbuf := rfl
@[simp] theorem enqueue_oq (r : FrameRec) : (s.enqueue r).oq = s.oq ++ [r] := rfl
@[simp] theorem enqueue_dtab (r : FrameRec) : (s.enqueue r).dtab = s.dtab := rfl
@[simp] theorem enqueue_currentState (r : FrameRec) : (s.enqueue r).currentState = s.currentState := rfl
@[simp] theorem enqueue_previousState (r : FrameRec) : (s.enqueue r).previousState = s.previousState := rfl
@[simp] theorem enqueue_stateEnterTimestamp (r : FrameRec) : (s.enqueue r).stateEnterTimestamp = s.stateEnterTimestamp := rfl
@[simp] theorem enqueue_batteryLevel (r : FrameRec) : (s.enqueue r).batteryLevel = s.batteryLevel := rfl
@[simp] theorem enqueue_currentExpressionId (r : FrameRec) : (s.enqueue r).currentExpressionId = s.currentExpressionId := rfl
@[simp] theorem enqueue_servoHAngle (r : FrameRec) : (s.enqueue r).servoHAngle = s.servoHAngle := rfl
@[simp] theorem enqueue_servoVAngle (r : FrameRec) : (s.enqueue r).servoVAngle = s.servoVAngle := rfl
@[simp] theorem enqueue_running (r : FrameRec) : (s.enqueue r).running = s.running := rfl
@[simp] theorem enqueue_nowMs (r : FrameRec) : (s.enqueue r).nowMs = s.nowMs := rfl
@[simp] theorem enqueue_reply (r : FrameRec) : (s.enqueue r).reply = s.reply := rfl
@[simp] theorem enqueue_pending (r : FrameRec) : (s.enqueue r).pending = s.pending := rfl
@[simp] theorem enqueue_tx (r : FrameRec) : (s.enqueue r).tx = s.tx := rfl
@[simp] theorem enqueue_disp (r : FrameRec) : (s.enqueue r).disp = s.disp := rfl
@[simp] theorem enqueue_expr (r : FrameRec) : (s.enqueue r).expr = s.expr := rfl
@[simp] theorem enqueue_diag (r : FrameRec) : (s.enqueue r).diag = s.diag := rfl
@[simp] theorem enqueue_sendResults (r : FrameRec) : (s.enqueue r).sendResults = s.sendResults := rfl

@[simp] theorem emptyQueue_cfg : (s.emptyQueue).cfg = s.cfg := rfl
@[simp] theorem emptyQueue_inFrame : (s.emptyQueue).inFrame = s.inFrame := rfl
@[simp] theorem emptyQueue_pos : (s.emptyQueue).pos = s.pos := rfl
@[simp] theorem emptyQueue_rxCommand : (s.emptyQueue).rxCommand = s.rxCommand := rfl
@[simp] theorem emptyQueue_rxLength : (s.emptyQueue).rxLength = s.rxLength := rfl
@[simp] theorem emptyQueue_rxbuf : (s.emptyQueue).rxbuf = s.rxbuf := rfl
@[simp] theorem emptyQueue_oq : (s.emptyQueue).oq = [] := rfl
@[simp] theorem emptyQueue_dtab : (s.emptyQueue).dtab = s.dtab := rfl
@[simp] theorem emptyQueue_currentState : (s.emptyQueue).currentState = s.currentState := rfl
@[simp] theorem emptyQueue_previousState : (s.emptyQueue).previousState = s.previousState := rfl
@[simp] theorem emptyQueue_stateEnterTimestamp : (s.emptyQueue).stateEnterTimestamp = s.stateEnterTimestamp := rfl
@[simp] theorem emptyQueue_batteryLevel : (s.emptyQueue).batteryLevel = s.batteryLevel := rfl
@[simp] theorem emptyQueue_currentExpressionId : (s.emptyQueue).currentExpressionId = s.currentExpressionId := rfl
@[simp] theorem emptyQueue_servoHAngle : (s.emptyQueue).servoHAngle = s.servoHAngle := rfl
@[simp] theorem emptyQueue_servoVAngle : (s.emptyQueue).servoVAngle = s.servoVAngle := rfl
@[simp] theorem emptyQueue_running : (s.emptyQueue).running = s.running := rfl
@[simp] theorem emptyQueue_nowMs : (s.emptyQueue).nowMs = s.nowMs := rfl
@[simp] theorem emptyQueue_reply : (s.emptyQueue).reply = s.reply := rfl
@[simp] theorem emptyQueue_pending : (s.emptyQueue).pending = s.pending := rfl
@[simp] theorem emptyQueue_tx : (s.emptyQueue).tx = s.tx := rfl
@[simp] theorem emptyQueue_disp : (s.emptyQueue).disp = s.disp := rfl
@[simp] theorem emptyQueue_expr : (s.emptyQueue).expr = s.expr := rfl
@[simp] theorem emptyQueue_diag : (s.emptyQueue).diag = s.diag := rfl
@[simp] theorem emptyQueue_sendResults : (s.emptyQueue).sendResults = s.sendResults := rfl

@[simp] theorem sampleNow_cfg (t : Time) : (s.sampleNow t).cfg = s.cfg := rfl
@[simp] theorem sampleNow_inFrame (t : Time) : (s.sampleNow t).inFrame = s.inFrame := rfl
@[simp] theorem sampleNow_pos (t : Time) : (s.sampleNow t).pos = s.pos := rfl
@[simp] theorem sampleNow_rxCommand (t : Time) : (s.sampleNow t).rxCommand = s.rxCommand := rfl
@[simp] theorem sampleNow_rxLength (t : Time) : (s.sampleNow t).rxLength = s.rxLength := rfl
@[simp] theorem sampleNow_rxbuf (t : Time) : (s.sampleNow t).rxbuf = s.rxbuf := rfl
@[simp] theorem sampleNow_oq (t : Time) : (s.sampleNow t).oq = s.oq := rfl
@[simp] theorem sampleNow_dtab (t : Time) : (s.sampleNow t).dtab = s.dtab := rfl
@[simp] theorem sampleNow_currentState (t : Time) : (s.sampleNow t).currentState = s.currentState := rfl
@[simp] theorem sampleNow_previousState (t : Time) : (s.sampleNow t).previousState = s.previousState := rfl
@[simp] theorem sampleNow_stateEnterTimestamp (t : Time) : (s.sampleNow t).stateEnterTimestamp = s.stateEnterTimestamp := rfl
@[simp] theorem sampleNow_batteryLevel (t : Time) : (s.sampleNow t).batteryLevel = s.batteryLevel := rfl
@[simp] theorem sampleNow_currentExpressionId (t : Time) : (s.sampleNow t).currentExpressionId = s.currentExpressionId := rfl
@[simp] theorem sampleNow_servoHAngle (t : Time) : (s.sampleNow t).servoHAngle = s.servoHAngle := rfl
@[simp] theorem sampleNow_servoVAngle (t : Time) : (s.sampleNow t).servoVAngle = s.servoVAngle := rfl
@[simp] theorem sampleNow_running (t : Time) : (s.sampleNow t).running = s.running := rfl
@[simp] theorem sampleNow_nowMs (t : Time) : (s.sampleNow t).nowMs = t % 2 ^ s.cfg.timeW := rfl
@[simp] theorem sampleNow_reply (t : Time) : (s.sampleNow t).reply = s.reply := rfl
@[simp] theorem sampleNow_pending (t : Time) : (s.sampleNow t).pending = s.pending := rfl
@[simp] theorem sampleNow_tx (t : Time) : (s.sampleNow t).tx = s.tx := rfl
@[simp] theorem sampleNow_disp (t : Time) : (s.sampleNow t).disp = s.disp := rfl
@[simp] theorem sampleNow_expr (t : Time) : (s.sampleNow t).expr = s.expr := rfl
@[simp] theorem sampleNow_diag (t : Time) : (s.sampleNow t).diag = s.diag := rfl
@[simp] theorem sampleNow_sendResults (t : Time) : (s.sampleNow t).sendResults = s.sendResults := rfl

@[simp] theorem withReply_cfg (ops : List HandlerOp) : (s.withReply ops).cfg = s.cfg := rfl
@[simp] theorem withReply_inFrame (ops : List HandlerOp) : (s.withReply ops).inFrame = s.inFrame := rfl
@[simp] theorem withReply_pos (ops : List HandlerOp) : (s.withReply ops).pos = s.pos := rfl
@[simp] theorem withReply_rxCommand (ops : List HandlerOp) : (s.withReply ops).rxCommand = s.rxCommand := rfl
@[simp] theorem withReply_rxLength (ops : List HandlerOp) : (s.withReply ops).rxLength = s.rxLength := rfl
@[simp] theorem withReply_rxbuf (ops : List HandlerOp) : (s.withReply ops).rxbuf = s.rxbuf := rfl
@[simp] theorem withReply_oq (ops : List HandlerOp) : (s.withReply ops).oq = s.oq := rfl
@[simp] theorem withReply_dtab (ops : List HandlerOp) : (s.withReply ops).dtab = s.dtab := rfl
@[simp] theorem withReply_currentState (ops : List HandlerOp) : (s.withReply ops).currentState = s.currentState := rfl
@[simp] theorem withReply_previousState (ops : List HandlerOp) : (s.withReply ops).previousState = s.previousState := rfl
@[simp] theorem withReply_stateEnterTimestamp (ops : List HandlerOp) : (s.withReply ops).stateEnterTimestamp = s.stateEnterTimestamp := rfl
@[simp] theorem withReply_batteryLevel (ops : List HandlerOp) : (s.withReply ops).batteryLevel = s.batteryLevel := rfl
@[simp] theorem withReply_currentExpressionId (ops : List HandlerOp) : (s.withReply ops).currentExpressionId = s.currentExpressionId := rfl
@[simp] theorem withReply_servoHAngle (ops : List HandlerOp) : (s.withReply ops).servoHAngle = s.servoHAngle := rfl
@[simp] theorem withReply_servoVAngle (ops : List HandlerOp) : (s.withReply ops).servoVAngle = s.servoVAngle := rfl
@[simp] theorem withReply_running (ops : List HandlerOp) : (s.withReply ops).running = s.running := rfl
@[simp] theorem withReply_nowMs (ops : List HandlerOp) : (s.withReply ops).nowMs = s.nowMs := rfl
@[simp] theorem withReply_reply (ops : List HandlerOp) : (s.withReply ops).reply = ops := rfl
@[simp] theorem withReply_pending (ops : List HandlerOp) : (s.withReply ops).pending = s.pending := rfl
@[simp] theorem withReply_tx (ops : List HandlerOp) : (s.withReply ops).tx = s.tx := rfl
@[simp] theorem withReply_disp (ops : List HandlerOp) : (s.withReply ops).disp = s.disp := rfl
@[simp] theorem withReply_expr (ops : List HandlerOp) : (s.withReply ops).expr = s.expr := rfl
@[simp] theorem withReply_diag (ops : List HandlerOp) : (s.withReply ops).diag = s.diag := rfl
@[simp] theorem withReply_sendResults (ops : List HandlerOp) : (s.withReply ops).sendResults = s.sendResults := rfl

@[simp] theorem withPending_cfg (ops : List Op) : (s.withPending ops).cfg = s.cfg := rfl
@[simp] theorem withPending_inFrame (ops : List Op) : (s.withPending ops).inFrame = s.inFrame := rfl
@[simp] theorem withPending_pos (ops : List Op) : (s.withPending ops).pos = s.pos := rfl
@[simp] theorem withPending_rxCommand (ops : List Op) : (s.withPending ops).rxCommand = s.rxCommand := rfl
@[simp] theorem withPending_rxLength (ops : List Op) : (s.withPending ops).rxLength = s.rxLength := rfl
@[simp] theorem withPending_rxbuf (ops : List Op) : (s.withPending ops).rxbuf = s.rxbuf := rfl
@[simp] theorem withPending_oq (ops : List Op) : (s.withPending ops).oq = s.oq := rfl
@[simp] theorem withPending_dtab (ops : List Op) : (s.withPending ops).dtab = s.dtab := rfl
@[simp] theorem withPending_currentState (ops : List Op) : (s.withPending ops).currentState = s.currentState := rfl
@[simp] theorem withPending_previousState (ops : List Op) : (s.withPending ops).previousState = s.previousState := rfl
@[simp] theorem withPending_stateEnterTimestamp (ops : List Op) : (s.withPending ops).stateEnterTimestamp = s.stateEnterTimestamp := rfl
@[simp] theorem withPending_batteryLevel (ops : List Op) : (s.withPending ops).batteryLevel = s.batteryLevel := rfl
@[simp] theorem withPending_currentExpressionId (ops : List Op) : (s.withPending ops).currentExpressionId = s.currentExpressionId := rfl
@[simp] theorem withPending_servoHAngle (ops : List Op) : (s.withPending ops).servoHAngle = s.servoHAngle := rfl
@[simp] theorem withPending_servoVAngle (ops : List Op) : (s.withPending ops).servoVAngle = s.servoVAngle := rfl
@[simp] theorem withPending_running (ops : List Op) : (s.withPending ops).running = s.running := rfl
@[simp] theorem withPending_nowMs (ops : List Op) : (s.withPending ops).nowMs = s.nowMs := rfl
@[simp] theorem withPending_reply (ops : List Op) : (s.withPending ops).reply = s.reply := rfl
@[simp] theorem withPending_pending (ops : List Op) : (s.withPending ops).pending = ops := rfl
@[simp] theorem withPending_tx (ops : List Op) : (s.withPending ops).tx = s.tx := rfl
@[simp] theorem withPending_disp (ops : List Op) : (s.withPending ops).disp = s.disp := rfl
@[simp] theorem withPending_expr (ops : List Op) : (s.withPending ops).expr = s.expr := rfl
@[simp] theorem withPending_diag (ops : List Op) : (s.withPending ops).diag = s.diag := rfl
@[simp] theorem withPending_sendResults (ops : List Op) : (s.withPending ops).sendResults = s.sendResults := rfl

@[simp] theorem withBattery_cfg (v : Byte) : (s.withBattery v).cfg = s.cfg := rfl
@[simp] theorem withBattery_inFrame (v : Byte) : (s.withBattery v).inFrame = s.inFrame := rfl
@[simp] theorem withBattery_pos (v : Byte) : (s.withBattery v).pos = s.pos := rfl
@[simp] theorem withBattery_rxCommand (v : Byte) : (s.withBattery v).rxCommand = s.rxCommand := rfl
@[simp] theorem withBattery_rxLength (v : Byte) : (s.withBattery v).rxLength = s.rxLength := rfl
@[simp] theorem withBattery_rxbuf (v : Byte) : (s.withBattery v).rxbuf = s.rxbuf := rfl
@[simp] theorem withBattery_oq (v : Byte) : (s.withBattery v).oq = s.oq := rfl
@[simp] theorem withBattery_dtab (v : Byte) : (s.withBattery v).dtab = s.dtab := rfl
@[simp] theorem withBattery_currentState (v : Byte) : (s.withBattery v).currentState = s.currentState := rfl
@[simp] theorem withBattery_previousState (v : Byte) : (s.withBattery v).previousState = s.previousState := rfl
@[simp] theorem withBattery_stateEnterTimestamp (v : Byte) : (s.withBattery v).stateEnterTimestamp = s.stateEnterTimestamp := rfl
@[simp] theorem withBattery_batteryLevel (v : Byte) : (s.withBattery v).batteryLevel = v := rfl
@[simp] theorem withBattery_currentExpressionId (v : Byte) : (s.withBattery v).currentExpressionId = s.currentExpressionId := rfl
@[simp] theorem withBattery_servoHAngle (v : Byte) : (s.withBattery v).servoHAngle = s.servoHAngle := rfl
@[simp] theorem withBattery_servoVAngle (v : Byte) : (s.withBattery v).servoVAngle = s.servoVAngle := rfl
@[simp] theorem withBattery_running (v : Byte) : (s.withBattery v).running = s.running := rfl
@[simp] theorem withBattery_nowMs (v : Byte) : (s.withBattery v).nowMs = s.nowMs := rfl
@[simp] theorem withBattery_reply (v : Byte) : (s.withBattery v).reply = s.reply := rfl
@[simp] theorem withBattery_pending (v : Byte) : (s.withBattery v).pending = s.pending := rfl
@[simp] theorem withBattery_tx (v : Byte) : (s.withBattery v).tx = s.tx := rfl
@[simp] theorem withBattery_disp (v : Byte) : (s.withBattery v).disp = s.disp := rfl
@[simp] theorem withBattery_expr (v : Byte) : (s.withBattery v).expr = s.expr := rfl
@[simp] theorem withBattery_diag (v : Byte) : (s.withBattery v).diag = s.diag := rfl
@[simp] theorem withBattery_sendResults (v : Byte) : (s.withBattery v).sendResults = s.sendResults := rfl

@[simp] theorem withServos_cfg (h v : Half) : (s.withServos h v).cfg = s.cfg := rfl
@[simp] theorem withServos_inFrame (h v : Half) : (s.withServos h v).inFrame = s.inFrame := rfl
@[simp] theorem withServos_pos (h v : Half) : (s.withServos h v).pos = s.pos := rfl
@[simp] theorem withServos_rxCommand (h v : Half) : (s.withServos h v).rxCommand = s.rxCommand := rfl
@[simp] theorem withServos_rxLength (h v : Half) : (s.withServos h v).rxLength = s.rxLength := rfl
@[simp] theorem withServos_rxbuf (h v : Half) : (s.withServos h v).rxbuf = s.rxbuf := rfl
@[simp] theorem withServos_oq (h v : Half) : (s.withServos h v).oq = s.oq := rfl
@[simp] theorem withServos_dtab (h v : Half) : (s.withServos h v).dtab = s.dtab := rfl
@[simp] theorem withServos_currentState (h v : Half) : (s.withServos h v).currentState = s.currentState := rfl
@[simp] theorem withServos_previousState (h v : Half) : (s.withServos h v).previousState = s.previousState := rfl
@[simp] theorem withServos_stateEnterTimestamp (h v : Half) : (s.withServos h v).stateEnterTimestamp = s.stateEnterTimestamp := rfl
@[simp] theorem withServos_batteryLevel (h v : Half) : (s.withServos h v).batteryLevel = s.batteryLevel := rfl
@[simp] theorem withServos_currentExpressionId (h v : Half) : (s.withServos h v).currentExpressionId = s.currentExpressionId := rfl
@[simp] theorem withServos_servoHAngle (h v : Half) : (s.withServos h v).servoHAngle = h := rfl
@[simp] theorem withServos_servoVAngle (h v : Half) : (s.withServos h v).servoVAngle = v := rfl
@[simp] theorem withServos_running (h v : Half) : (s.withServos h v).running = s.running := rfl
@[simp] theorem withServos_nowMs (h v : Half) : (s.withServos h v).nowMs = s.nowMs := rfl
@[simp] theorem withServos_reply (h v : Half) : (s.withServos h v).reply = s.reply := rfl
@[simp] theorem withServos_pending (h v : Half) : (s.withServos h v).pending = s.pending := rfl
@[simp] theorem withServos_tx (h v : Half) : (s.withServos h v).tx = s.tx := rfl
@[simp] theorem withServos_disp (h v : Half) : (s.withServos h v).disp = s.disp := rfl
@[simp] theorem withServos_expr (h v : Half) : (s.withServos h v).expr = s.expr := rfl
@[simp] theorem withServos_diag (h v : Half) : (s.withServos h v).diag = s.diag := rfl
@[simp] theorem withServos_sendResults (h v : Half) : (s.withServos h v).sendResults = s.sendResults := rfl

@[simp] theorem withRunning_cfg (b : Bool) : (s.withRunning b).cfg = s.cfg := rfl
@[simp] theorem withRunning_inFrame (b : Bool) : (s.withRunning b).inFrame = s.inFrame := rfl
@[simp] theorem withRunning_pos (b : Bool) : (s.withRunning b).pos = s.pos := rfl
@[simp] theorem withRunning_rxCommand (b : Bool) : (s.withRunning b).rxCommand = s.rxCommand := rfl
@[simp] theorem withRunning_rxLength (b : Bool) : (s.withRunning b).rxLength = s.rxLength := rfl
@[simp] theorem withRunning_rxbuf (b : Bool) : (s.withRunning b).rxbuf = s.rxbuf := rfl
@[simp] theorem withRunning_oq (b : Bool) : (s.withRunning b).oq = s.oq := rfl
@[simp] theorem withRunning_dtab (b : Bool) : (s.withRunning b).dtab = s.dtab := rfl
@[simp] theorem withRunning_currentState (b : Bool) : (s.withRunning b).currentState = s.currentState := rfl
@[simp] theorem withRunning_previousState (b : Bool) : (s.withRunning b).previousState = s.previousState := rfl
@[simp] theorem withRunning_stateEnterTimestamp (b : Bool) : (s.withRunning b).stateEnterTimestamp = s.stateEnterTimestamp := rfl
@[simp] theorem withRunning_batteryLevel (b : Bool) : (s.withRunning b).batteryLevel = s.batteryLevel := rfl
@[simp] theorem withRunning_currentExpressionId (b : Bool) : (s.withRunning b).currentExpressionId = s.currentExpressionId := rfl
@[simp] theorem withRunning_servoHAngle (b : Bool) : (s.withRunning b).servoHAngle = s.servoHAngle := rfl
@[simp] theorem withRunning_servoVAngle (b : Bool) : (s.withRunning b).servoVAngle = s.servoVAngle := rfl
@[simp] theorem withRunning_running (b : Bool) : (s.withRunning b).running = b := rfl
@[simp] theorem withRunning_nowMs (b : Bool) : (s.withRunning b).nowMs = s.nowMs := rfl
@[simp] theorem withRunning_reply (b : Bool) : (s.withRunning b).reply = s.reply := rfl
@[simp] theorem withRunning_pending (b : Bool) : (s.withRunning b).pending = s.pending := rfl
@[simp] theorem withRunning_tx (b : Bool) : (s.withRunning b).tx = s.tx := rfl
@[simp] theorem withRunning_disp (b : Bool) : (s.withRunning b).disp = s.disp := rfl
@[simp] theorem withRunning_expr (b : Bool) : (s.withRunning b).expr = s.expr := rfl
@[simp] theorem withRunning_diag (b : Bool) : (s.withRunning b).diag = s.diag := rfl
@[simp] theorem withRunning_sendResults (b : Bool) : (s.withRunning b).sendResults = s.sendResults := rfl

@[simp] theorem enterState_cfg (code expression : Byte) : (s.enterState code expression).cfg = s.cfg := rfl
@[simp] theorem enterState_inFrame (code expression : Byte) : (s.enterState code expression).inFrame = s.inFrame := rfl
@[simp] theorem enterState_pos (code expression : Byte) : (s.enterState code expression).pos = s.pos := rfl
@[simp] theorem enterState_rxCommand (code expression : Byte) : (s.enterState code expression).rxCommand = s.rxCommand := rfl
@[simp] theorem enterState_rxLength (code expression : Byte) : (s.enterState code expression).rxLength = s.rxLength := rfl
@[simp] theorem enterState_rxbuf (code expression : Byte) : (s.enterState code expression).rxbuf = s.rxbuf := rfl
@[simp] theorem enterState_oq (code expression : Byte) : (s.enterState code expression).oq = s.oq := rfl
@[simp] theorem enterState_dtab (code expression : Byte) : (s.enterState code expression).dtab = s.dtab := rfl
@[simp] theorem enterState_currentState (code expression : Byte) : (s.enterState code expression).currentState = code := rfl
@[simp] theorem enterState_previousState (code expression : Byte) : (s.enterState code expression).previousState = s.currentState := rfl
@[simp] theorem enterState_stateEnterTimestamp (code expression : Byte) : (s.enterState code expression).stateEnterTimestamp = s.nowMs := rfl
@[simp] theorem enterState_batteryLevel (code expression : Byte) : (s.enterState code expression).batteryLevel = s.batteryLevel := rfl
@[simp] theorem enterState_currentExpressionId (code expression : Byte) : (s.enterState code expression).currentExpressionId = expression := rfl
@[simp] theorem enterState_servoHAngle (code expression : Byte) : (s.enterState code expression).servoHAngle = s.servoHAngle := rfl
@[simp] theorem enterState_servoVAngle (code expression : Byte) : (s.enterState code expression).servoVAngle = s.servoVAngle := rfl
@[simp] theorem enterState_running (code expression : Byte) : (s.enterState code expression).running = s.running := rfl
@[simp] theorem enterState_nowMs (code expression : Byte) : (s.enterState code expression).nowMs = s.nowMs := rfl
@[simp] theorem enterState_reply (code expression : Byte) : (s.enterState code expression).reply = s.reply := rfl
@[simp] theorem enterState_pending (code expression : Byte) : (s.enterState code expression).pending = s.pending := rfl
@[simp] theorem enterState_tx (code expression : Byte) : (s.enterState code expression).tx = s.tx := rfl
@[simp] theorem enterState_disp (code expression : Byte) : (s.enterState code expression).disp = s.disp := rfl
@[simp] theorem enterState_expr (code expression : Byte) : (s.enterState code expression).expr = s.expr := rfl
@[simp] theorem enterState_diag (code expression : Byte) : (s.enterState code expression).diag = s.diag := rfl
@[simp] theorem enterState_sendResults (code expression : Byte) : (s.enterState code expression).sendResults = s.sendResults := rfl

end Sys2Proof.Machine.State
end

