-- ==== Sys2Proof/Laws/Ops.lean ====
section
/-! SUPPORT. One lemma per shared operation that says once everything it can do; later proofs cite it and do not unfold the
operation. -/

namespace Sys2Proof.Machine

/-! `SEND` (R135, R136). -/

/-- The three outcomes of `SEND`. -/
theorem send_cases (c : Byte) (p : List Byte) (s : State) :
    (1024 < p.length ∧ send c p s = (s.raise (.sendOversize c p.length), .rejected)) ∨
    (p.length ≤ 1024 ∧ s.oq.length = s.cfg.qDepth ∧ send c p s = (s, .rejected)) ∨
    (p.length ≤ 1024 ∧ s.oq.length ≠ s.cfg.qDepth ∧ send c p s = (s.enqueue (mkRecord s.cfg c p), .accepted)) := by
  unfold send State.oqFull State.oqCount Config.maxPayload
  by_cases h : 1024 < p.length
  · simp [h]
  · by_cases hq : s.oq.length = s.cfg.qDepth
    · simp [h, hq]; omega
    · simp [h, hq]; omega

/-- A record that `SEND` builds of a legal payload meets R52 (d). -/
theorem mkRecord_ok (cfg : Config) (c : Byte) {p : List Byte} (h : p.length ≤ 1024) : RecordOk cfg (mkRecord cfg c p) := by
  refine ⟨?_, ?_, rfl⟩ <;> simp [mkRecord, lengthOf_toNat h]; exact h

/-- The record of the status frame (R203). -/
theorem mkRecord_status (s : State) :
    mkRecord s.cfg s.cfg.statusCmd (statusPayload s) = statusRecord s s.currentState s.currentExpressionId := by
  have h : lengthOf (statusPayload s) = 7 := rfl
  have hl : lo8 7 = 0x07 := by decide
  have hh : hi8 7 = 0x00 := by decide
  simp only [mkRecord, h, covered, hl, hh]; rfl

/-- The two outcomes of the status frame of a transition (R202, R203). -/
theorem sendStatus_cases (s : State) :
    (s.oq.length = s.cfg.qDepth ∧ sendStatus s = s.raise (.queueFull s.cfg.statusCmd)) ∨
    (s.oq.length ≠ s.cfg.qDepth ∧
      sendStatus s = s.enqueue (statusRecord s s.currentState s.currentExpressionId)) := by
  have hl : (statusPayload s).length ≤ 1024 := by simp [statusPayload, statusLayout, bytes16]
  unfold sendStatus
  rcases send_cases s.cfg.statusCmd (statusPayload s) s with ⟨h, _⟩ | ⟨_, hq, h⟩ | ⟨_, hq, h⟩
  · omega
  · left; simp [h, hq]
  · right; simp [h, hq, mkRecord_status]

/-- What a transition can do (R200, R202, R217). -/
theorem transition_cases (r : RealState) (s : State) :
    (s.currentState = s.cfg.enc r ∧ transition r s = s) ∨
    (s.currentState ≠ s.cfg.enc r ∧ s.oq.length = s.cfg.qDepth ∧
      transition r s = ((s.enterState (s.cfg.enc r) (exprOf r)).emitExpr (exprOf r)).raise (.queueFull s.cfg.statusCmd)) ∨
    (s.currentState ≠ s.cfg.enc r ∧ s.oq.length ≠ s.cfg.qDepth ∧
      transition r s =
        ((s.enterState (s.cfg.enc r) (exprOf r)).emitExpr (exprOf r)).enqueue
          (statusRecord s (s.cfg.enc r) (exprOf r))) := by
  unfold transition
  by_cases h : s.cfg.enc r = s.currentState
  · simp [h]
  · have h' : s.currentState ≠ s.cfg.enc r := fun e => h e.symm
    rcases sendStatus_cases ((s.enterState (s.cfg.enc r) (exprOf r)).emitExpr (exprOf r)) with ⟨hq, e⟩ | ⟨hq, e⟩
    · right; left; rw [if_neg h, e]; exact ⟨h', hq, rfl⟩
    · right; right; rw [if_neg h, e]; exact ⟨h', hq, rfl⟩

/-- What the set-state handler can do (R205). -/
theorem hSetState_cases (p : List Byte) (s : State) :
    (p = [] ∧ hSetState p s = s.raise (.invalidState none)) ∨
    (∃ v more, p = v :: more ∧ s.cfg.realOf v = none ∧ hSetState p s = s.raise (.invalidState (some v))) ∨
    (∃ v more r, p = v :: more ∧ s.cfg.realOf v = some r ∧ hSetState p s = transition r s) := by
  cases p with
  | nil => exact .inl ⟨rfl, rfl⟩
  | cons v more =>
    cases h : s.cfg.realOf v with
    | none => right; left; exact ⟨v, more, rfl, h, by simp [hSetState, h]⟩
    | some r => right; right; exact ⟨v, more, r, rfl, h, by simp [hSetState, h]⟩

/-- The two outcomes of `SET_BATTERY_LEVEL` (R212). -/
theorem setBatteryLevel_cases (v : Byte) (s : State) :
    (v.toNat ≤ 100 ∧ setBatteryLevel v s = s.withBattery v) ∨
    (100 < v.toNat ∧ setBatteryLevel v s = s.raise (.badBattery v)) := by
  unfold setBatteryLevel Config.batteryMax
  by_cases h : 100 < v.toNat
  · simp [h]
  · simp [h]; omega

@[simp] theorem atPort_setState (w : Nat) : Handler.setState.atPort w = .setState := rfl

@[simp] theorem atPort_ext (w : Nat) (r : Route) : (Handler.ext r).atPort w = .ext (r % 2 ^ w) := rfl

/-- A handler whose route fits is the one bound (10_state.md R34). -/
theorem atPort_of_fits {w : Nat} {h : Handler} (hr : ∀ r, h = .ext r → r < 2 ^ w) : h.atPort w = h := by
  cases h with
  | setState => rfl
  | ext r => rw [atPort_ext, Nat.mod_eq_of_lt (hr r rfl)]

/-- A sample fits the input. -/
theorem sampleNow_fits (s : State) (now : Time) : (s.sampleNow now).nowMs < 2 ^ s.cfg.timeW :=
  Nat.mod_lt _ (Nat.two_pow_pos _)

/-- The two outcomes of `BIND` (R160, R161). -/
theorem bind_cases (c : Byte) (h : Handler) (s : State) :
    ((s.cfg.inCmdSet c = false ∨ (h = .setState ∧ c ≠ Config.cmdSetState)) ∧ bind c h s = s.raise (.badBind c)) ∨
    (s.cfg.inCmdSet c = true ∧ (h = .setState → c = Config.cmdSetState) ∧
      bind c h s = s.setEntry c (.bound (h.atPort s.cfg.routeW))) := by
  unfold bind
  by_cases hc : s.cfg.inCmdSet c = false
  · simp [hc]
  · by_cases hh : h = .setState ∧ c ≠ Config.cmdSetState
    · left; simp [hc, hh]
    · right
      refine ⟨by simpa using hc, fun e => ?_, by rw [if_neg hc, if_neg hh]⟩
      by_contra hne
      exact hh ⟨e, hne⟩

/-- The elapsed time is the difference modulo 2^`TIME_W` (R211). -/
theorem elapsed_eq (s : State) :
    (elapsed s : Int) = ((s.nowMs : Int) - (s.stateEnterTimestamp : Int)) % 2 ^ s.cfg.timeW := by
  have h : ((2 ^ s.cfg.timeW : Nat) : Int) = (2 : Int) ^ s.cfg.timeW := by push_cast; rfl
  unfold elapsed
  rw [h, Int.toNat_of_nonneg (Int.emod_nonneg _ (by positivity))]

/-- Sampling the input first changes nothing: the input wraps at the same 2^`TIME_W`. -/
theorem elapsed_sampleNow (s : State) (now : Time) :
    (elapsed (s.sampleNow now) : Int) = ((now : Int) - (s.stateEnterTimestamp : Int)) % 2 ^ s.cfg.timeW := by
  rw [elapsed_eq]
  simp

/-- The two outcomes of `TIMER_CHECK` (R210). -/
theorem timerCheck_cases (s : State) :
    (s.running = true ∧ s.currentState = s.cfg.stWake ∧ 2000 ≤ elapsed s ∧
      timerCheck s = transition .listen s) ∨
    (¬ (s.running = true ∧ s.currentState = s.cfg.stWake ∧ 2000 ≤ elapsed s) ∧
      timerCheck s = s) := by
  unfold timerCheck Config.wakeTimeoutMs
  by_cases h : s.running = true ∧ s.currentState = s.cfg.stWake ∧ 2000 ≤ elapsed s
  · exact .inl ⟨h.1, h.2.1, h.2.2, if_pos h⟩
  · exact .inr ⟨h, if_neg h⟩

/-! The reply of an external handler (R166). -/

theorem performReply_append (ops more : List HandlerOp) (s : State) :
    performReply (ops ++ more) s = performReply more (performReply ops s) := by
  induction ops generalizing s with
  | nil => rfl
  | cons op ops ih => exact ih _

/-- A property of states that each handler operation keeps is kept by a whole reply. -/
theorem performReply_induction {P : State → Prop} (hop : ∀ op u, P u → P (performHandlerOp op u))
    (ops : List HandlerOp) (s : State) (h : P s) : P (performReply ops s) := by
  induction ops generalizing s with
  | nil => exact h
  | cons op ops ih => exact ih _ (hop op s h)

/-! `FEED` (R126). -/

/-- What `FEED` can do. `u` is the state with the consumed byte stored. -/
theorem feed_cases (b : Byte) (s : State) :
    (s.inFrame = false ∧ b ≠ 0xAA ∧ feed b s = (s, none)) ∨
    (s.inFrame = false ∧ b = 0xAA ∧ feed b s = (s.atPos 1, none)) ∨
    (s.inFrame = true ∧ ∃ u : State,
      ((s.pos.toNat = 1 ∧ u = s.withCommand b) ∨
        (s.pos.toNat = 2 ∧ u = s.withLength (le16 b (hi8 s.rxLength))) ∨
        (s.pos.toNat = 3 ∧ u = s.withLength (le16 (lo8 s.rxLength) b)) ∨
        (s.pos.toNat ≠ 1 ∧ s.pos.toNat ≠ 2 ∧ s.pos.toNat ≠ 3 ∧ s.pos.toNat < 4 + s.rxLength.toNat ∧
          u = if s.pos.toNat - 4 < 1024 then s.storeRx (s.pos.toNat - 4) b else s)) ∧
      ((s.pos.toNat + 1 = 1029 ∧ feed b s = ((u.raise (.oversizeAbandon u.rxCommand u.rxLength)).toIdle, none)) ∨
        (s.pos.toNat + 1 ≠ 1029 ∧ feed b s = (u.atPos (s.pos.toNat + 1), none)))) ∨
    (s.inFrame = true ∧ s.pos.toNat ≠ 1 ∧ s.pos.toNat ≠ 2 ∧ s.pos.toNat ≠ 3 ∧ 4 + s.rxLength.toNat ≤ s.pos.toNat ∧
      feed b s = (s.toIdle, some (completedFrame b s))) := by
  unfold feed
  by_cases hf : s.inFrame = true
  · right; right
    have hadv : ∀ u : State, (s.pos.toNat + 1 = 1029 ∧
        feedAdvance s.pos.toNat u = (u.raise (.oversizeAbandon u.rxCommand u.rxLength)).toIdle) ∨
        (s.pos.toNat + 1 ≠ 1029 ∧ feedAdvance s.pos.toNat u = u.atPos (s.pos.toNat + 1)) := by
      intro u
      unfold feedAdvance Config.maxFrame
      by_cases h : s.pos.toNat + 1 = 1029
      · exact .inl ⟨h, if_pos h⟩
      · exact .inr ⟨h, if_neg h⟩
    have hadv' : ∀ u : State, (s.pos.toNat + 1 = 1029 ∧
        (feedAdvance s.pos.toNat u, (none : Option RxFrame)) =
          ((u.raise (.oversizeAbandon u.rxCommand u.rxLength)).toIdle, none)) ∨
        (s.pos.toNat + 1 ≠ 1029 ∧
          (feedAdvance s.pos.toNat u, (none : Option RxFrame)) = (u.atPos (s.pos.toNat + 1), none)) := by
      intro u
      rcases hadv u with ⟨h, e⟩ | ⟨h, e⟩
      · exact .inl ⟨h, by rw [e]⟩
      · exact .inr ⟨h, by rw [e]⟩
    rw [if_pos hf]
    unfold feedInFrame Config.payloadOffset
    dsimp only
    by_cases h1 : s.pos.toNat = 1
    · rw [if_pos h1]
      exact .inl ⟨hf, _, .inl ⟨h1, rfl⟩, hadv' _⟩
    by_cases h2 : s.pos.toNat = 2
    · rw [if_neg h1, if_pos h2]
      exact .inl ⟨hf, _, .inr (.inl ⟨h2, rfl⟩), hadv' _⟩
    by_cases h3 : s.pos.toNat = 3
    · rw [if_neg h1, if_neg h2, if_pos h3]
      exact .inl ⟨hf, _, .inr (.inr (.inl ⟨h3, rfl⟩)), hadv' _⟩
    by_cases h4 : s.pos.toNat < 4 + s.rxLength.toNat
    · rw [if_neg h1, if_neg h2, if_neg h3, if_pos h4]
      exact .inl ⟨hf, _, .inr (.inr (.inr ⟨h1, h2, h3, h4, rfl⟩)), hadv' _⟩
    · rw [if_neg h1, if_neg h2, if_neg h3, if_neg h4]
      exact .inr ⟨hf, h1, h2, h3, by omega, rfl⟩
  · have hf' : s.inFrame = false := by simpa using hf
    rw [if_neg hf]
    by_cases hb : b = Config.head
    · exact .inr (.inl ⟨hf', hb, if_pos hb⟩)
    · exact .inl ⟨hf', hb, if_neg hb⟩

/-- `FEED` keeps `RXBUF` in canonical form and inside its indices (20_memory.md R61): its one write is at an index below 1024. -/
theorem feed_buffer (b : Byte) (s : State) (h : BufferInv s) : BufferInv (feed b s).1 := by
  rcases feed_cases b s with ⟨_, _, e⟩ | ⟨_, _, e⟩ | ⟨_, u, hu, ho⟩ | ⟨_, _, _, _, _, e⟩
  · rw [e]; exact h
  · rw [e]; exact h
  · have hb : BufferInv u := by
      rcases hu with ⟨_, rfl⟩ | ⟨_, rfl⟩ | ⟨_, rfl⟩ | ⟨_, _, _, _, rfl⟩
      · exact h
      · exact h
      · exact h
      · split
        next hlt =>
          refine ⟨Memory.wf_write h.1 _ _, fun c hc => ?_⟩
          rcases Memory.mem_write hc with rfl | hc
          · exact hlt
          · exact h.2 c hc
        next => exact h
    rcases ho with ⟨_, e⟩ | ⟨_, e⟩ <;> rw [e] <;> exact hb
  · rw [e]; exact h

/-- The memory after reset is in canonical form. -/
theorem reset_buffer : BufferInv State.reset := ⟨Memory.wf_nil, fun _ hc => absurd hc List.not_mem_nil⟩

theorem feedAll_append (xs ys : List Byte) (s : State) :
    feedAll (xs ++ ys) s =
      ((feedAll ys (feedAll xs s).1).1, (feedAll xs s).2 ++ (feedAll ys (feedAll xs s).1).2) := by
  induction xs generalizing s with
  | nil => simp [feedAll]
  | cons x xs ih => simp [feedAll, ih, List.append_assoc]

/-! `DISPATCH` and the meanings (R163, R170 to R182). -/

/-- Every meaning is the dispatch of its frame. -/
theorem exec_eq (i : Instr) (s : State) : exec i s = .next (dispatch (s.cfg.cmd i.command) i.payload s) := by
  cases i <;> rfl

/-- What a dispatch can do (R163). -/
theorem dispatch_cases (c : Byte) (p : List Byte) (s : State) :
    (s.dtab.get c = .unbound ∧ dispatch c p s = s.raise (.unhandledCommand c (lengthOf p))) ∨
    (s.dtab.get c = .bound .setState ∧ dispatch c p s = hSetState p s) ∨
    (∃ r, s.dtab.get c = .bound (.ext r) ∧
      dispatch c p s = performReply s.reply (s.emitDisp ⟨r, c, lengthOf p, p⟩)) := by
  unfold dispatch
  split
  next h => exact .inl ⟨h, rfl⟩
  next h => exact .inr (.inl ⟨h, rfl⟩)
  next r h => exact .inr (.inr ⟨r, h, rfl⟩)

theorem ofCommand_command (c : Command) (p : List Byte) : (Instr.ofCommand c p).command = c := by cases c <;> rfl

theorem ofCommand_payload (c : Command) (p : List Byte) : (Instr.ofCommand c p).payload = p := by cases c <;> rfl

theorem ofCommand_eta (i : Instr) : Instr.ofCommand i.command i.payload = i := by cases i <;> rfl

/-- A delivered frame is dispatched under its own command byte, in or outside the closed set (R163). -/
theorem deliver_eq (f : RxFrame) (s : State) : deliver f s = .next (dispatch f.command f.payload s) := by
  unfold deliver instrOf
  cases h : s.cfg.commandOf f.command with
  | none => rfl
  | some c => simp [exec_eq, ofCommand_command, ofCommand_payload, Config.cmd_of_commandOf h]

/-- What an `RX_BYTE` can do (R242). `u` is the state with the samples at the ports. -/
theorem rxByte_cases (x : RxSample) (s : State) :
    ∃ u, u = (s.sampleNow x.now).withReply x.reply ∧
      (((feed x.byte u).2 = none ∧ rxByte x s = .next (feed x.byte u).1) ∨
      (∃ f, (feed x.byte u).2 = some f ∧ f.valid = true ∧
        rxByte x s = .next (dispatch f.command f.payload (feed x.byte u).1)) ∨
      (∃ f, (feed x.byte u).2 = some f ∧ f.valid = false ∧
        rxByte x s = .next ((feed x.byte u).1.raise (.checksumMismatch f.command f.length f.received f.computed)))) := by
  refine ⟨_, rfl, ?_⟩
  unfold rxByte
  rcases h : feed x.byte ((s.sampleNow x.now).withReply x.reply) with ⟨t, _ | f⟩
  · simp
  · cases hv : f.valid <;> simp [hv, deliver_eq]

end Sys2Proof.Machine
end

