-- ==== Sys2Proof/Laws/PerInstr.lean ====
section
/-! SUPPORT. One family over the constructors of Instr: the length of an instruction's encoding (30_encoding.md R96, "total
frame bytes = 5 + LENGTH"). -/

namespace Sys2Proof.Laws.EncodedLength

open Sys2Proof.Machine

/-- The frame of an instruction has 5 bytes and those of its payload, under every configuration. -/
def Statement (i : Instr) : Prop := ∀ cfg : Config, (encode cfg i).length = i.payload.length + 5

theorem of_frame (i : Instr) : Statement i := fun cfg => frameBytes_length cfg _ _

theorem heartbeat (payload : List Byte) : Statement (.heartbeat payload) := of_frame _

theorem setExpression (payload : List Byte) : Statement (.setExpression payload) := of_frame _

theorem setServo (payload : List Byte) : Statement (.setServo payload) := of_frame _

theorem playAudio (payload : List Byte) : Statement (.playAudio payload) := of_frame _

theorem recordAudio (payload : List Byte) : Statement (.recordAudio payload) := of_frame _

theorem sendImage (payload : List Byte) : Statement (.sendImage payload) := of_frame _

theorem setState (payload : List Byte) : Statement (.setState payload) := of_frame _

theorem getStatus (payload : List Byte) : Statement (.getStatus payload) := of_frame _

theorem sensorData (payload : List Byte) : Statement (.sensorData payload) := of_frame _

theorem recordControl (payload : List Byte) : Statement (.recordControl payload) := of_frame _

theorem cameraControl (payload : List Byte) : Statement (.cameraControl payload) := of_frame _

theorem setGaze (payload : List Byte) : Statement (.setGaze payload) := of_frame _

theorem error (payload : List Byte) : Statement (.error payload) := of_frame _

end Sys2Proof.Laws.EncodedLength
end

