-- ==== Sys2Proof/Laws/Schedule.lean ====
section
/-! SUPPORT. The schedule is read by `step` only: every operation commutes with setting `pending`. -/

namespace Sys2Proof.Machine

theorem feedAdvance_withPending (k p) (s : State) : feedAdvance k (s.withPending p) = (feedAdvance k s).withPending p := by
  unfold feedAdvance
  by_cases h : k + 1 = Config.maxFrame
  · rw [if_pos h, if_pos h]; rfl
  · rw [if_neg h, if_neg h]; rfl
theorem feedPayload_withPending (k b p) (s : State) : feedPayload k b (s.withPending p) = (feedPayload k b s).withPending p := by
  unfold feedPayload
  by_cases h : k - Config.payloadOffset < Config.maxPayload
  · rw [if_pos h, if_pos h]; rfl
  · rw [if_neg h, if_neg h]
theorem feed_withPending (b p) (s : State) : feed b (s.withPending p) = ((feed b s).1.withPending p, (feed b s).2) := by
  have hc : ∀ b, (s.withPending p).withCommand b = (s.withCommand b).withPending p := fun _ => rfl
  have hl : ∀ b, (s.withPending p).withLength b = (s.withLength b).withPending p := fun _ => rfl
  simp only [feed, feedInFrame, State.withPending_inFrame, State.withPending_pos, State.withPending_rxLength, hc, hl, feedAdvance_withPending, feedPayload_withPending]
  by_cases hf : s.inFrame = true
  · simp only [if_pos hf]
    by_cases h1 : s.pos.toNat = 1
    · simp only [if_pos h1]
    by_cases h2 : s.pos.toNat = 2
    · simp only [if_neg h1, if_pos h2]
    by_cases h3 : s.pos.toNat = 3
    · simp only [if_neg h1, if_neg h2, if_pos h3]
    by_cases h4 : s.pos.toNat < Config.payloadOffset + s.rxLength.toNat
    · simp only [if_neg h1, if_neg h2, if_neg h3, if_pos h4]
    · simp only [if_neg h1, if_neg h2, if_neg h3, if_neg h4]; rfl
  · simp only [if_neg hf]
    by_cases h1 : b = Config.head
    · simp only [if_pos h1]; rfl
    · simp only [if_neg h1]

theorem sendExternal_withPending (c pl p) (s : State) : sendExternal c pl (s.withPending p) = (sendExternal c pl s).withPending p := by
  unfold sendExternal send
  split; · rfl
  by_cases h : s.oqFull = true
  · rw [if_pos h, if_pos (show (s.withPending p).oqFull = true from h)]; rfl
  · rw [if_neg h, if_neg (show ¬ (s.withPending p).oqFull = true from h)]; rfl

theorem setBatteryLevel_withPending (v p) (s : State) : setBatteryLevel v (s.withPending p) = (setBatteryLevel v s).withPending p := by
  unfold setBatteryLevel; split <;> rfl

theorem performHandlerOp_withPending (op p) (s : State) : performHandlerOp op (s.withPending p) = (performHandlerOp op s).withPending p := by
  cases op with
  | send c pl => exact sendExternal_withPending c pl p s
  | setBatteryLevel v => exact setBatteryLevel_withPending v p s
  | setServoAngles h v => rfl

theorem performReply_withPending (ops p) (s : State) : performReply ops (s.withPending p) = (performReply ops s).withPending p := by
  induction ops generalizing s with
  | nil => rfl
  | cons op ops ih => simp only [performReply]; rw [performHandlerOp_withPending, ih]

theorem bind_withPending (c h p) (s : State) : bind c h (s.withPending p) = (bind c h s).withPending p := by
  rcases bind_cases c h s with ⟨h1, e⟩ | ⟨h1, h2, e⟩ <;> rcases bind_cases c h (s.withPending p) with ⟨h1', e'⟩ | ⟨h1', h2', e'⟩ <;> rw [e, e']
  · rfl
  · rcases h1 with h1 | h1
    · have h1' : s.cfg.inCmdSet c = true := h1'
      rw [h1] at h1'; cases h1'
    · exact absurd (h2' h1.1) h1.2
  · rcases h1' with h1' | h1'
    · have h1' : s.cfg.inCmdSet c = false := h1'
      rw [h1] at h1'; cases h1'
    · exact absurd (h2 h1'.1) h1'.2
  · rfl

theorem performHostOp_withPending (op p) (s : State) : performHostOp op (s.withPending p) = (performHostOp op s).withPending p := by
  cases op with
  | send c pl => exact sendExternal_withPending c pl p s
  | setBatteryLevel v => exact setBatteryLevel_withPending v p s
  | setServoAngles h v => rfl
  | setRunning b => rfl
  | bind c h => exact bind_withPending c h p s

theorem transition_withPending (r p) (s : State) : transition r (s.withPending p) = (transition r s).withPending p := by
  rcases transition_cases r s with ⟨h, e⟩ | ⟨h, hq, e⟩ | ⟨h, hq, e⟩ <;>
  rcases transition_cases r (s.withPending p) with ⟨h', e'⟩ | ⟨h', hq', e'⟩ | ⟨h', hq', e'⟩ <;> rw [e, e'] <;>
  first | rfl | exact absurd h h' | exact absurd h' h | exact absurd hq hq' | exact absurd hq' hq

theorem dispatch_withPending (c pl p) (s : State) : dispatch c pl (s.withPending p) = (dispatch c pl s).withPending p := by
  simp only [dispatch, State.withPending_dtab]
  cases h : s.dtab.get c with
  | unbound => rfl
  | bound hd => cases hd with
    | setState =>
      show hSetState pl (s.withPending p) = (hSetState pl s).withPending p
      cases pl with
      | nil => rfl
      | cons v more =>
        simp only [hSetState, State.withPending_cfg]
        cases s.cfg.realOf v with
        | none => rfl
        | some r => exact transition_withPending r p s
    | ext r => exact performReply_withPending s.reply p (s.emitDisp ⟨r, c, lengthOf pl, pl⟩)

theorem rxByte_withPending (x p) (s : State) : ∃ u, rxByte x s = .next u ∧ rxByte x (s.withPending p) = .next (u.withPending p) := by
  unfold rxByte
  have : ((s.withPending p).sampleNow x.now).withReply x.reply = ((s.sampleNow x.now).withReply x.reply).withPending p := rfl
  rw [this, feed_withPending]
  rcases h : feed x.byte ((s.sampleNow x.now).withReply x.reply) with ⟨t, _ | f⟩
  · exact ⟨_, rfl, rfl⟩
  · dsimp only
    cases f.valid with
    | false => exact ⟨_, rfl, rfl⟩
    | true => 
      simp only [if_true, deliver_eq]; rw [dispatch_withPending]; exact ⟨_, rfl, rfl⟩

end Sys2Proof.Machine
end

