-- ==== Sys2Proof/Laws/Step.lean ====
section
/-! SUPPORT. What a step can do, said once: an invariant proof over `step` is a proof over the atomic operations. -/

namespace Sys2Proof.Machine

/-- The state changes that a step is made of: each is one atomic operation of 30_encoding.md R110 on a state whose schedule is
already set. `RESET` is not one of them: `step_cases` says it apart. -/
inductive StepKind : State → State → Prop where
  | idle (s) : StepKind s s
  | init (s) (now : Time) : StepKind s (initOp (s.sampleNow now))
  | host (s) (op : HostOp) : StepKind s (performHostOp op s)
  | fed (s) (x : RxSample) : StepKind s (feed x.byte ((s.sampleNow x.now).withReply x.reply)).1
  | dispatched (s) (x : RxSample) (f : RxFrame) (h : (feed x.byte ((s.sampleNow x.now).withReply x.reply)).2 = some f) :
      StepKind s (dispatch f.command f.payload (feed x.byte ((s.sampleNow x.now).withReply x.reply)).1)
  | mismatch (s) (x : RxSample) (f : RxFrame) (h : (feed x.byte ((s.sampleNow x.now).withReply x.reply)).2 = some f) :
      StepKind s ((feed x.byte ((s.sampleNow x.now).withReply x.reply)).1.raise
        (.checksumMismatch f.command f.length f.received f.computed))
  | flush (s) : StepKind s (flush s)
  | timer (s) (now : Time) : StepKind s (timerCheck (s.sampleNow now))

theorem rxByte_kind {x : RxSample} {s t : State} (h : rxByte x s = .next t) : StepKind s t := by
  obtain ⟨u, rfl, hc⟩ := rxByte_cases x s
  rcases hc with ⟨_, e⟩ | ⟨f, hf, _, e⟩ | ⟨f, hf, _, e⟩
  · rw [e] at h; cases h; exact .fed s x
  · rw [e] at h; cases h; exact .dispatched s x f hf
  · rw [e] at h; cases h; exact .mismatch s x f hf

/-- A step that answers is, under a legal configuration, `RESET` if the schedule says so, and else one of the other atomic
operations, on the state with its schedule advanced. -/
theorem step_cases {s t : State} (h : step s = .next t) :
    s.cfg.wf ∧ ∃ ops, ((∃ more, s.pending = .reset :: more) ∧ t = resetOp (s.withPending ops)) ∨
      StepKind (s.withPending ops) t := by
  unfold step at h
  split at h
  next hw =>
    refine ⟨(Config.legal_iff _).mp hw, ?_⟩
    split at h
    next hp =>
      cases h
      refine ⟨[], .inr ?_⟩
      have : s.withPending [] = s := by rw [← hp]; rfl
      rw [this]; exact .idle s
    next op ops hp =>
      cases op with
      | reset => cases h; exact ⟨ops, .inl ⟨⟨ops, hp⟩, rfl⟩⟩
      | init now => cases h; exact ⟨ops, .inr (.init _ now)⟩
      | host op => cases h; exact ⟨ops, .inr (.host _ op)⟩
      | rxByte x => exact ⟨ops, .inr (rxByte_kind h)⟩
      | flush => cases h; exact ⟨ops, .inr (.flush _)⟩
      | timerCheck now => cases h; exact ⟨ops, .inr (.timer _ now)⟩
      | tick items before now =>
        cases items with
        | nil => cases h; exact ⟨_, .inr (.flush _)⟩
        | cons item items =>
          cases item with
          | rx x => exact ⟨_, .inr (rxByte_kind h)⟩
          | host op => cases h; exact ⟨_, .inr (.host _ op)⟩
  next => cases h

/-! The step of one operation, and runs. -/

/-- Under a legal configuration the step applies the next operation, which is off the schedule. -/
theorem step_op {s : State} {op : Op} {ops : List Op} (hw : s.cfg.wf) (hp : s.pending = op :: ops) :
    step s = applyOp op (s.withPending ops) := by
  unfold step; rw [if_pos ((Config.legal_iff _).mpr hw), hp]

theorem step_refused {s : State} (h : ¬ s.cfg.wf) : step s = .refused .badConfiguration := by
  unfold step; rw [if_neg (fun e => h ((Config.legal_iff _).mp e))]

@[simp] theorem runSteps_zero (s : State) : runSteps 0 s = .next s := rfl

theorem runSteps_next {n : Nat} {s t : State} (h : step s = .next t) : runSteps (n + 1) s = runSteps n t := by
  simp only [runSteps, h]

theorem runSteps_refused {n : Nat} {s : State} {r : Refusal} (h : step s = .refused r) :
    runSteps (n + 1) s = .refused r := by
  simp only [runSteps, h]

end Sys2Proof.Machine
end

