-- ==== Sys2Proof/Machine/Observation.lean ====
section
/-! DEFINITION. The read-only status outputs of the block (10_state.md R50): reading them has no effect (D29). -/

namespace Sys2Proof.Machine

/-- The continuously visible outputs: the Behavior Controller registers of R35 to R42, `oq_count`, `in_frame`, `pos` (R50). -/
structure Status where
  currentState : Byte
  previousState : Byte
  stateEnterTimestamp : Time
  batteryLevel : Byte
  currentExpressionId : Byte
  servoHAngle : Half
  servoVAngle : Half
  running : Bool
  oqCount : Nat
  inFrame : Bool
  pos : Cursor
deriving DecidableEq, Repr

/-- The status outputs in a state (R50). -/
def State.status (s : State) : Status where
  currentState := s.currentState
  previousState := s.previousState
  stateEnterTimestamp := s.stateEnterTimestamp
  batteryLevel := s.batteryLevel
  currentExpressionId := s.currentExpressionId
  servoHAngle := s.servoHAngle
  servoVAngle := s.servoVAngle
  running := s.running
  oqCount := s.oqCount
  inFrame := s.inFrame
  pos := s.pos

end Sys2Proof.Machine
end

