-- ==== Sys2Proof/Tests/Slice0.lean ====
section
/-! SUPPORT. The model's own tests. Every expected value is from the spec's worked examples (95_test_vectors.md; the vector is
named at each test) or is read off a rule. Then one witness for every statement with hypotheses: a concrete state and operands that
meet all of them together. -/

namespace Sys2Proof.Tests

open Sys2Proof.Machine

/-! Small states. -/

/-- RDY of 95_test_vectors.md: after `RESET; INIT@0; TICK@0 []`, the streams counted from there. -/
def ready : State :=
  { State.reset with dtab := Dtab.empty.put 0x07 (.bound .setState), currentState := 1, running := true }

/-- RDY with operations still to come. -/
def readyFor (ops : List Op) : State := { ready with pending := ops }

/-- RDY with one more binding, to an external route. -/
def routed (c : Byte) (r : Route) : State := { ready with dtab := ready.dtab.put c (.bound (.ext r)) }

/-- The `HEARTBEAT` frame with an empty payload, as a queued record. -/
def heartbeatRecord : FrameRec := ⟨0x01, 0, [], 0x08⟩

/-- RDY with `Q_DEPTH` = 2 and a full queue (T-BC-13). -/
def full : State :=
  { ready with cfg := { Config.default with qDepth := 2 }, oq := [heartbeatRecord, heartbeatRecord] }

/-- A parser inside a frame of command 0x06. -/
def inFrameAt (pos : Cursor) (length : Half) : State :=
  { State.reset with inFrame := true, pos := pos, rxCommand := 0x06, rxLength := length }

/-- What a next state meets; no other outcome does. -/
def answers (o : Host.Outcome State Fault Refusal) (p : State → Bool) : Bool :=
  match o with
  | .next t => p t
  | .fault _ => false
  | .refused _ => false

/-! WellFormed: a payload of 1025 bytes does not fit a frame, one of 1024 does (R93, R106). -/

theorem test_long_payload_is_ill_formed : (Instr.sendImage (List.replicate 1025 0)).wellFormed = false := by
  show decide ((List.replicate 1025 (0 : Byte)).length ≤ 1024) = false
  rw [List.length_replicate]; rfl

theorem test_longest_payload_is_well_formed : (Instr.sendImage (List.replicate 1024 0)).wellFormed = true := by
  show decide ((List.replicate 1024 (0 : Byte)).length ≤ 1024) = true
  rw [List.length_replicate]; rfl

/-! Decoding: the frame of every command with an empty payload, written out in T-CD-11, and the word of the opcode table. -/

theorem test_decode_heartbeat :
    decode Config.default [0xAA, 0x01, 0x00, 0x00, 0x08] = .ok (.heartbeat []) [] ∧
      decodeTableWord 16 0xAA01 = some (.heartbeat []) := by decide

theorem test_decode_set_expression :
    decode Config.default [0xAA, 0x02, 0x00, 0x00, 0xB5] = .ok (.setExpression []) [] ∧
      decodeTableWord 16 0xAA02 = some (.setExpression []) := by decide

theorem test_decode_set_servo :
    decode Config.default [0xAA, 0x03, 0x00, 0x00, 0xDE] = .ok (.setServo []) [] ∧
      decodeTableWord 16 0xAA03 = some (.setServo []) := by decide

theorem test_decode_play_audio :
    decode Config.default [0xAA, 0x04, 0x00, 0x00, 0xC8] = .ok (.playAudio []) [] ∧
      decodeTableWord 16 0xAA04 = some (.playAudio []) := by decide

theorem test_decode_record_audio :
    decode Config.default [0xAA, 0x05, 0x00, 0x00, 0xA3] = .ok (.recordAudio []) [] ∧
      decodeTableWord 16 0xAA05 = some (.recordAudio []) := by decide

theorem test_decode_send_image :
    decode Config.default [0xAA, 0x06, 0x00, 0x00, 0x1E] = .ok (.sendImage []) [] ∧
      decodeTableWord 16 0xAA06 = some (.sendImage []) := by decide

theorem test_decode_set_state :
    decode Config.default [0xAA, 0x07, 0x00, 0x00, 0x75] = .ok (.setState []) [] ∧
      decodeTableWord 16 0xAA07 = some (.setState []) := by decide

theorem test_decode_get_status :
    decode Config.default [0xAA, 0x08, 0x00, 0x00, 0x32] = .ok (.getStatus []) [] ∧
      decodeTableWord 16 0xAA08 = some (.getStatus []) := by decide

theorem test_decode_sensor_data :
    decode Config.default [0xAA, 0x09, 0x00, 0x00, 0x59] = .ok (.sensorData []) [] ∧
      decodeTableWord 16 0xAA09 = some (.sensorData []) := by decide

theorem test_decode_record_control :
    decode Config.default [0xAA, 0x0A, 0x00, 0x00, 0xE4] = .ok (.recordControl []) [] ∧
      decodeTableWord 16 0xAA0A = some (.recordControl []) := by decide

theorem test_decode_camera_control :
    decode Config.default [0xAA, 0x0B, 0x00, 0x00, 0x8F] = .ok (.cameraControl []) [] ∧
      decodeTableWord 16 0xAA0B = some (.cameraControl []) := by decide

theorem test_decode_set_gaze :
    decode Config.default [0xAA, 0x0C, 0x00, 0x00, 0x99] = .ok (.setGaze []) [] ∧
      decodeTableWord 16 0xAA0C = some (.setGaze []) := by decide

theorem test_decode_error :
    decode Config.default [0xAA, 0x0D, 0x00, 0x00, 0xF2] = .ok (.error []) [] ∧
      decodeTableWord 16 0xAA0D = some (.error []) := by decide

/-- R107: no `HEAD`, a wrong checksum (T-FT-6), a command outside the closed set (T-CD-7), a length above 1024 (T-FT-4). -/
theorem test_decode_rejects :
    decode Config.default [0xAB, 0x01, 0x00, 0x00, 0x08] = .bad (.badHead 0xAB) ∧
    decode Config.default [0xAA, 0x07, 0x01, 0x00, 0x05, 0x3D] = .bad (.checksumMismatch 0x3D 0x3C) ∧
    decode Config.default [0xAA, 0x42, 0x02, 0x00, 0x01, 0x02, 0xF1] = .bad (.reservedCommand 0x42) ∧
    decode Config.default [0xAA, 0x06, 0x01, 0x04] = .bad (.oversize 1025) ∧
    decode Config.default [0xAA, 0x06, 0x01] = .bad .truncated := by decide

/-! The checksum unit: T-CRC-3, 4, 6, 8, 9. -/

theorem test_crc_vectors :
    crc8 Config.default [0x01] = 0x07 ∧ crc8 Config.default [0x80] = 0x89 ∧ crc8 Config.default [0xFF] = 0xF3 ∧
    crc8 Config.default [0x31, 0x32, 0x33, 0x34, 0x35, 0x36, 0x37, 0x38, 0x39] = 0xF4 ∧
    crc8 Config.default [0xAA, 0x07, 0x07, 0x00, 0x05, 0x64, 0x01, 0x5A, 0x00, 0x5A, 0x00, 0x3A] = 0x00 := by decide

/-! One step per command. T-CD-11: each of the twelve external commands, bound to the route of its own number, gives the `DISP`
event (c, c, 0, []); unbound it is reported (R165). -/

theorem test_heartbeat_routed :
    answers (step ((routed 0x01 1).withFetchWord 16 0xAA01)) (fun t =>
      t.disp = [⟨1, 0x01, 0, []⟩] ∧ t.diag = [] ∧ t.oq = [] ∧ t.inFrame = false ∧ t.currentState = 1) = true := by
  decide

theorem test_heartbeat_unbound :
    answers (step (ready.withFetchWord 16 0xAA01)) (fun t =>
      t.disp = [] ∧ t.diag = [.unhandledCommand 0x01 0]) = true := by
  decide

theorem test_set_expression_routed :
    answers (step ((routed 0x02 2).withFetchWord 16 0xAA02)) (fun t =>
      t.disp = [⟨2, 0x02, 0, []⟩] ∧ t.diag = [] ∧ t.oq = [] ∧ t.inFrame = false ∧ t.currentState = 1) = true := by
  decide

theorem test_set_expression_unbound :
    answers (step (ready.withFetchWord 16 0xAA02)) (fun t =>
      t.disp = [] ∧ t.diag = [.unhandledCommand 0x02 0]) = true := by
  decide

theorem test_set_servo_routed :
    answers (step ((routed 0x03 3).withFetchWord 16 0xAA03)) (fun t =>
      t.disp = [⟨3, 0x03, 0, []⟩] ∧ t.diag = [] ∧ t.oq = [] ∧ t.inFrame = false ∧ t.currentState = 1) = true := by
  decide

theorem test_set_servo_unbound :
    answers (step (ready.withFetchWord 16 0xAA03)) (fun t =>
      t.disp = [] ∧ t.diag = [.unhandledCommand 0x03 0]) = true := by
  decide

theorem test_play_audio_routed :
    answers (step ((routed 0x04 4).withFetchWord 16 0xAA04)) (fun t =>
      t.disp = [⟨4, 0x04, 0, []⟩] ∧ t.diag = [] ∧ t.oq = [] ∧ t.inFrame = false ∧ t.currentState = 1) = true := by
  decide

theorem test_play_audio_unbound :
    answers (step (ready.withFetchWord 16 0xAA04)) (fun t =>
      t.disp = [] ∧ t.diag = [.unhandledCommand 0x04 0]) = true := by
  decide

theorem test_record_audio_routed :
    answers (step ((routed 0x05 5).withFetchWord 16 0xAA05)) (fun t =>
      t.disp = [⟨5, 0x05, 0, []⟩] ∧ t.diag = [] ∧ t.oq = [] ∧ t.inFrame = false ∧ t.currentState = 1) = true := by
  decide

theorem test_record_audio_unbound :
    answers (step (ready.withFetchWord 16 0xAA05)) (fun t =>
      t.disp = [] ∧ t.diag = [.unhandledCommand 0x05 0]) = true := by
  decide

theorem test_send_image_routed :
    answers (step ((routed 0x06 6).withFetchWord 16 0xAA06)) (fun t =>
      t.disp = [⟨6, 0x06, 0, []⟩] ∧ t.diag = [] ∧ t.oq = [] ∧ t.inFrame = false ∧ t.currentState = 1) = true := by
  decide

theorem test_send_image_unbound :
    answers (step (ready.withFetchWord 16 0xAA06)) (fun t =>
      t.disp = [] ∧ t.diag = [.unhandledCommand 0x06 0]) = true := by
  decide

theorem test_get_status_routed :
    answers (step ((routed 0x08 8).withFetchWord 16 0xAA08)) (fun t =>
      t.disp = [⟨8, 0x08, 0, []⟩] ∧ t.diag = [] ∧ t.oq = [] ∧ t.inFrame = false ∧ t.currentState = 1) = true := by
  decide

theorem test_get_status_unbound :
    answers (step (ready.withFetchWord 16 0xAA08)) (fun t =>
      t.disp = [] ∧ t.diag = [.unhandledCommand 0x08 0]) = true := by
  decide

theorem test_sensor_data_routed :
    answers (step ((routed 0x09 9).withFetchWord 16 0xAA09)) (fun t =>
      t.disp = [⟨9, 0x09, 0, []⟩] ∧ t.diag = [] ∧ t.oq = [] ∧ t.inFrame = false ∧ t.currentState = 1) = true := by
  decide

theorem test_sensor_data_unbound :
    answers (step (ready.withFetchWord 16 0xAA09)) (fun t =>
      t.disp = [] ∧ t.diag = [.unhandledCommand 0x09 0]) = true := by
  decide

theorem test_record_control_routed :
    answers (step ((routed 0x0A 10).withFetchWord 16 0xAA0A)) (fun t =>
      t.disp = [⟨10, 0x0A, 0, []⟩] ∧ t.diag = [] ∧ t.oq = [] ∧ t.inFrame = false ∧ t.currentState = 1) = true := by
  decide

theorem test_record_control_unbound :
    answers (step (ready.withFetchWord 16 0xAA0A)) (fun t =>
      t.disp = [] ∧ t.diag = [.unhandledCommand 0x0A 0]) = true := by
  decide

theorem test_camera_control_routed :
    answers (step ((routed 0x0B 11).withFetchWord 16 0xAA0B)) (fun t =>
      t.disp = [⟨11, 0x0B, 0, []⟩] ∧ t.diag = [] ∧ t.oq = [] ∧ t.inFrame = false ∧ t.currentState = 1) = true := by
  decide

theorem test_camera_control_unbound :
    answers (step (ready.withFetchWord 16 0xAA0B)) (fun t =>
      t.disp = [] ∧ t.diag = [.unhandledCommand 0x0B 0]) = true := by
  decide

theorem test_set_gaze_routed :
    answers (step ((routed 0x0C 12).withFetchWord 16 0xAA0C)) (fun t =>
      t.disp = [⟨12, 0x0C, 0, []⟩] ∧ t.diag = [] ∧ t.oq = [] ∧ t.inFrame = false ∧ t.currentState = 1) = true := by
  decide

theorem test_set_gaze_unbound :
    answers (step (ready.withFetchWord 16 0xAA0C)) (fun t =>
      t.disp = [] ∧ t.diag = [.unhandledCommand 0x0C 0]) = true := by
  decide

theorem test_error_routed :
    answers (step ((routed 0x0D 13).withFetchWord 16 0xAA0D)) (fun t =>
      t.disp = [⟨13, 0x0D, 0, []⟩] ∧ t.diag = [] ∧ t.oq = [] ∧ t.inFrame = false ∧ t.currentState = 1) = true := by
  decide

theorem test_error_unbound :
    answers (step (ready.withFetchWord 16 0xAA0D)) (fun t =>
      t.disp = [] ∧ t.diag = [.unhandledCommand 0x0D 0]) = true := by
  decide

/-- T-BC-10: an empty set-state payload. -/
theorem test_set_state_empty :
    answers (step (ready.withFetchWord 16 0xAA07)) (fun t =>
      t.diag = [.invalidState none] ∧ t.currentState = 1 ∧ t.oq = [] ∧ t.expr = []) = true := by
  decide

/-- T-BC-5: `SET_STATE 5` at 1000 in RDY. -/
theorem test_set_state_talk :
    answers (exec (.setState [0x05]) { ready with nowMs := 1000 }) (fun t =>
      t.previousState = 1 ∧ t.currentState = 5 ∧ t.stateEnterTimestamp = 1000 ∧ t.currentExpressionId = 0x04 ∧
      t.expr = [0x04] ∧ t.diag = [] ∧
      t.oq.map serialize = [[0xAA, 0x07, 0x07, 0x00, 0x05, 0x64, 0x04, 0x5A, 0x00, 0x5A, 0x00, 0xD7]]) = true := by
  decide

/-! The other operations, one step each. -/

/-- T-BC-13: the transition stands, the status frame is dropped. -/
theorem test_transition_full_queue :
    answers (exec (.setState [0x05]) { full with nowMs := 77 }) (fun t =>
      t.currentState = 5 ∧ t.stateEnterTimestamp = 77 ∧ t.oq = full.oq ∧ t.diag = [.queueFull 0x07]) = true := by
  decide

/-- T-BC-7, T-BC-8: `IDLE` and 6 are not requests for a real state. -/
theorem test_set_state_rejected :
    answers (exec (.setState [0x00]) ready) (fun t => t.diag = [.invalidState (some 0)] ∧ t.currentState = 1) = true ∧
    answers (exec (.setState [0x06]) ready) (fun t => t.diag = [.invalidState (some 6)] ∧ t.currentState = 1) = true := by
  decide

/-- T-CD-9: set-state bound outside goes to `DISP`. -/
theorem test_set_state_rebound :
    answers (exec (.setState [0x05]) (routed 0x07 5)) (fun t =>
      t.disp = [⟨5, 0x07, 1, [0x05]⟩] ∧ t.currentState = 1 ∧ t.oq = []) = true := by
  decide

/-- T-CD-8 without its over-long `SEND`: the reply is performed in order and a failure does not abort it. -/
theorem test_handler_reply :
    answers (exec (.getStatus []) { routed 0x08 4 with reply := [.setBatteryLevel 55, .setServoAngles 0x002D 0x0087,
        .setBatteryLevel 200, .send 0x08 [0x01, 0x37, 0x00, 0x2D, 0x00, 0x87, 0x00]] }) (fun t =>
      t.disp = [⟨4, 0x08, 0, []⟩] ∧ t.batteryLevel = 55 ∧ t.servoHAngle = 0x002D ∧ t.servoVAngle = 0x0087 ∧
      t.diag = [.badBattery 200] ∧ t.sendResults = [.accepted] ∧
      t.oq.map serialize = [[0xAA, 0x08, 0x07, 0x00, 0x01, 0x37, 0x00, 0x2D, 0x00, 0x87, 0x00, 0xEB]]) = true := by
  decide

/-- T-BC-1: `INIT@0` from S0. -/
theorem test_init :
    answers (step { State.reset with pending := [.init 0] }) (fun t =>
      t.dtab.get 0x07 = .bound .setState ∧ t.currentState = 1 ∧ t.running = true ∧ t.expr = [0x00] ∧
      t.oq.map serialize = [[0xAA, 0x07, 0x07, 0x00, 0x01, 0x64, 0x00, 0x5A, 0x00, 0x5A, 0x00, 0x2D]]) = true := by
  decide

/-- T-CD-2, T-CD-3: refused bindings. -/
theorem test_bind_refused :
    answers (step { State.reset with pending := [.host (.bind 0x42 (.ext 1))] }) (fun t => t.diag = [.badBind 0x42]) = true ∧
    answers (step { State.reset with pending := [.host (.bind 0x02 .setState)] }) (fun t => t.diag = [.badBind 0x02]) = true := by
  decide

/-- T-CD-1: the hardware entry of route 3. -/
theorem test_bind :
    answers (step { State.reset with pending := [.host (.bind 0x02 (.ext 3))] }) (fun t =>
      (t.dtab.get 0x02).bits 8 = 0x203 ∧ t.diag = []) = true := by
  decide

/-- T-FT-20: a queue of two. -/
theorem test_send :
    answers (step { full with oq := [], pending := [.host (.send 0x09 [0x2C, 0x01, 0x01, 0x80])] }) (fun t =>
      t.oq.map serialize = [[0xAA, 0x09, 0x04, 0x00, 0x2C, 0x01, 0x01, 0x80, 0x2F]] ∧ t.sendResults = [.accepted]) = true ∧
    answers (step { full with pending := [.host (.send 0x02 [0x03])] }) (fun t =>
      t.oq = full.oq ∧ t.sendResults = [.rejected] ∧ t.diag = []) = true := by
  decide

/-- R140: the head of the queue first. -/
theorem test_flush :
    answers (step { full with oq := [⟨0x02, 1, [0x03], 0x60⟩, heartbeatRecord], pending := [.flush] }) (fun t =>
      t.oq = [] ∧ t.tx = [0xAA, 0x02, 0x01, 0x00, 0x03, 0x60, 0xAA, 0x01, 0x00, 0x00, 0x08]) = true := by
  decide

/-- T-BC-21, T-BC-22, T-BC-24: one millisecond before the threshold, at it, and across the wrap of the counter. -/
theorem test_timer :
    answers (step { readyFor [.timerCheck 2999] with currentState := 2, stateEnterTimestamp := 1000 }) (fun t =>
      t.currentState = 2 ∧ t.expr = []) = true ∧
    answers (step { readyFor [.timerCheck 3000] with currentState := 2, stateEnterTimestamp := 1000 }) (fun t =>
      t.currentState = 3 ∧ t.previousState = 2 ∧ t.stateEnterTimestamp = 3000 ∧ t.expr = [0x02]) = true ∧
    answers (step { readyFor [.timerCheck 0x000003E8] with currentState := 2, stateEnterTimestamp := 0xFFFFFC18 }) (fun t =>
      t.currentState = 3) = true := by
  decide

/-- R6: a `TIME_W` of 16 wraps the input and the timestamp at 2^16; a `ROUTE_W` of 4 has the low four bits of a route at the port
(log 5); a `STATE_W` of 2 has no room for `ST_TALK` = 5, so the configuration is refused. -/
theorem test_widths_are_parameters :
    answers (step { readyFor [.timerCheck 0x10BB8] with
        cfg := { Config.default with timeW := 16 }, currentState := 2, stateEnterTimestamp := 1000 }) (fun t =>
      t.currentState = 3 ∧ t.stateEnterTimestamp = 3000) = true ∧
    answers (step { readyFor [.host (.bind 0x02 (.ext 0x13))] with cfg := { Config.default with routeW := 4 } }) (fun t =>
      t.dtab.get 0x02 = .bound (.ext 3)) = true ∧
    ¬ { Config.default with stateW := 2 }.wf := by
  decide

/-- T-BC-31: 100 is the last legal battery level. -/
theorem test_battery :
    answers (step (readyFor [.host (.setBatteryLevel 101)])) (fun t => t.diag = [.badBattery 101] ∧ t.batteryLevel = 100) = true ∧
    answers (step (readyFor [.host (.setBatteryLevel 0)])) (fun t => t.diag = [] ∧ t.batteryLevel = 0) = true := by
  decide

/-- T-FT-4: the byte at offset 1028 of a frame whose length is 1025; T-FT-3: with 1024 it is the checksum. -/
theorem test_bound :
    (feed 0xAA (inFrameAt 1028 1025)).1.diag = [.oversizeAbandon 0x06 1025] ∧
    (feed 0xAA (inFrameAt 1028 1025)).1.inFrame = false ∧ (feed 0xAA (inFrameAt 1028 1025)).2 = none ∧
    (feed 0x11 (inFrameAt 1027 1024)).1.pos = 1028 ∧ (feed 0x11 (inFrameAt 1027 1024)).1.rxbuf.read 1023 = 0x11 := by
  decide

/-- An ill-formed configuration is refused (U10). -/
theorem test_bad_configuration :
    (match step { ready with cfg := { Config.default with qDepth := 0 } } with
      | .refused .badConfiguration => true
      | _ => false) = true := by
  decide


/-! Witnesses: for every statement with hypotheses, a state and operands that meet them. Long payloads are replicated bytes. -/

theorem long_ok : (List.replicate 1024 (0xAA : Byte)).length ≤ 1024 := by rw [List.length_replicate]

theorem too_long : 1024 < (List.replicate 1025 (0xAA : Byte)).length := by rw [List.length_replicate]; decide

theorem notReset_of (s : State) (op : Op) (ops : List Op) (h : s.pending = op :: ops) (hr : op ≠ .reset) : NotReset s := by
  intro more e
  rw [h] at e
  exact hr (List.cons.inj e).1

/-- The identifiers of the default configuration. -/
theorem default_cmd_ne (x : Command) : Config.default.cmd x ≠ 0x42 := by cases x <;> decide

theorem wit_DecodeEncodeRoundTrip :
    Config.default.wf ∧ (Instr.sendImage (List.replicate 1024 0)).wellFormed = true ∧ (Instr.setState []).wellFormed = true :=
  ⟨Config.default_wf, test_longest_payload_is_well_formed, by decide⟩

theorem wit_DecodedBytesAreItsFrame :
    decode Config.default [0xAA, 0x07, 0x01, 0x00, 0x05, 0x3C, 0xAA] = .ok (.setState [0x05]) [0xAA] := by decide

/-- Clause by clause: `LENGTH` = 1025; a longest payload with a wrong checksum; the reserved command 0x42. -/
theorem wit_ReservedFramesAreRejectedByName :
    1024 < (le16 0x01 0x04).toNat ∧
    ((List.replicate 1024 (0xAA : Byte)).length ≤ 1024 ∧
      crc8 Config.default (covered 0x06 (lengthOf (List.replicate 1024 (0xAA : Byte))) (List.replicate 1024 0xAA)) + 1 ≠
        crc8 Config.default (covered 0x06 (lengthOf (List.replicate 1024 (0xAA : Byte))) (List.replicate 1024 0xAA))) ∧
    (([] : List Byte).length ≤ 1024 ∧ ∀ x, Config.default.cmd x ≠ 0x42) := by
  refine ⟨by decide, ⟨long_ok, ?_⟩, by decide, default_cmd_ne⟩
  generalize crc8 Config.default _ = k
  revert k; decide

/-- The largest route of the default `ROUTE_W`; an unbound entry with all its other bits set; a command of the closed set. -/
theorem wit_TableEntryBits :
    (∀ r, DtabEntry.bound (.ext 255) = .bound (.ext r) → r < 2 ^ 8) ∧ (255 : Route) < 256 ∧
    (0x1FF : BitVec (1 + (1 + 8))).getLsbD (1 + 8) = false ∧ ∃ x, State.reset.cfg.cmd x = 0x02 := by
  refine ⟨fun r h => ?_, by decide, by decide, .setExpression, rfl⟩
  cases h
  decide

theorem wit_ChecksumLaws :
    Config.default.crcInit = 0x00 ∧ ([0xAA, 0x07] : List Byte).length = ([0x00, 0x01] : List Byte).length := by decide

/-- A flip of bit 0 of the command (T-FT-12 (a)) and of bit 7 of the last payload byte. -/
theorem wit_SingleBitErrorsAreDetected :
    ready.inFrame = false ∧ ([0x05] : List Byte).length ≤ 1024 ∧ ([0x85] : List Byte).length = ([0x05] : List Byte).length ∧
    OneBitApart (0x07 :: [0x05]) (0x06 :: [0x05]) ∧ OneBitApart (0x07 :: [0x05]) (0x07 :: [0x85]) :=
  ⟨rfl, by decide, rfl, ⟨[], 0x07, [0x05], 0, by decide, rfl, rfl⟩, ⟨[0x07], 0x05, [], 7, by decide, rfl, rfl⟩⟩

theorem wit_IdleArm : ready.inFrame = false ∧ (0xAB : Byte) ≠ 0xAA := by decide

theorem wit_HeaderArms :
    (inFrameAt 1 0).inFrame = true ∧ (inFrameAt 1 0).pos = 1 ∧ (inFrameAt 2 0xFFFF).pos = 2 ∧ (inFrameAt 3 0xFFFF).pos = 3 := by
  decide

/-- The first and the last payload byte, `LENGTH` = 0, and the byte outside the buffer. -/
theorem wit_PayloadArm :
    (4 ≤ (inFrameAt 4 1).pos.toNat ∧ (inFrameAt 4 1).pos.toNat < 4 + (inFrameAt 4 1).rxLength.toNat) ∧
    ((inFrameAt 1027 1024).pos.toNat < 4 + (inFrameAt 1027 1024).rxLength.toNat ∧ (inFrameAt 1027 1024).pos.toNat ≤ 1027) ∧
    ((inFrameAt 4 0).rxLength = 0 ∧ (inFrameAt 4 0).pos = 4) ∧
    (1024 < (inFrameAt 1028 1025).rxLength.toNat ∧ (inFrameAt 1028 1025).pos.toNat = 1028) := by
  decide

/-- The boundary of the parser's invariant: in a frame of claimed length 1025 and 65535, at the last offset. -/
theorem inFrame_inv (pos : Cursor) (length : Half) (h1 : 1 ≤ pos.toNat) (h2 : pos.toNat ≤ 1028)
    (h3 : pos.toNat ≤ 4 + length.toNat) : ParserInv (inFrameAt pos length) :=
  ⟨⟨fun h => absurd h (by simp [inFrameAt]), fun _ => ⟨h1, h2⟩⟩, fun _ _ => h3⟩

theorem wit_DefensiveBound :
    ((inFrameAt 1028 1025).inFrame = true ∧ (inFrameAt 1028 1025).pos.toNat = 1028 ∧
      1024 < (inFrameAt 1028 1025).rxLength.toNat) ∧
    ((inFrameAt 1028 1024).pos.toNat = 1028 ∧ (inFrameAt 1028 1024).rxLength.toNat = 1024) ∧
    (ParserInv (inFrameAt 1028 1024) ∧ ¬ (1024 < (inFrameAt 1028 1024).rxLength.toNat)) :=
  ⟨by decide, by decide, inFrame_inv _ _ (by decide) (by decide) (by decide), by decide⟩

theorem wit_ChecksumArm :
    ((inFrameAt 4 0).inFrame = true ∧ (inFrameAt 4 0).pos.toNat = 4 + (inFrameAt 4 0).rxLength.toNat) ∧
    ((inFrameAt 1028 1024).inFrame = true ∧ (inFrameAt 1028 1024).pos.toNat = 4 + (inFrameAt 1028 1024).rxLength.toNat) := by
  decide

theorem wit_EveryByteHasOneFate : ParserInv ready ∧ ParserInv (inFrameAt 1028 0xFFFF) ∧ ParserInv (inFrameAt 1 0) :=
  ⟨⟨⟨fun _ => rfl, fun h => absurd h (by decide)⟩, fun h => absurd h (by decide)⟩,
    inFrame_inv _ _ (by decide) (by decide) (by decide), inFrame_inv _ _ (by decide) (by decide) (by decide)⟩

theorem wit_FeedBufferFrame : (inFrameAt 1027 1024).inFrame = true → 1 ≤ (inFrameAt 1027 1024).pos.toNat := by decide

theorem wit_FrameRoundTripThroughParser : ready.inFrame = false ∧ (List.replicate 1024 (0xAA : Byte)).length ≤ 1024 :=
  ⟨rfl, long_ok⟩

/-- T-FT-10. -/
theorem wit_ResyncAfterGarbageWithoutSync :
    ready.inFrame = false ∧ 0xAA ∉ ([0x00, 0x13, 0x55, 0xFF, 0xA9, 0xAB, 0x07] : List Byte) ∧
      ([0x05] : List Byte).length ≤ 1024 := by
  decide

/-- Two states that agree in the parser alone; a schedule that cuts a frame into a single byte and two ticks, with a `FLUSH`, a
`TIMER_CHECK` and host operations between. -/
theorem wit_ChunkingInvariance :
    ({ ready with running := false, oq := [heartbeatRecord], nowMs := 9 }.cfg = ready.cfg ∧
      SameParser ready { ready with running := false, oq := [heartbeatRecord], nowMs := 9 }) ∧
    (readyFor [.rxByte ⟨0xAA, 0, []⟩, .flush, .tick [.rx ⟨0x07, 1, []⟩, .host (.setRunning false), .rx ⟨0x01, 1, []⟩] [] 2,
      .timerCheck 3, .host (.send 0x01 []), .tick [.rx ⟨0x00, 4, []⟩] [.setBatteryLevel 9] 4]).cfg.wf ∧
    ∀ op ∈ (readyFor [.rxByte ⟨0xAA, 0, []⟩, .flush, .tick [.rx ⟨0x07, 1, []⟩, .host (.setRunning false), .rx ⟨0x01, 1, []⟩] [] 2,
      .timerCheck 3, .host (.send 0x01 []), .tick [.rx ⟨0x00, 4, []⟩] [.setBatteryLevel 9] 4]).pending, op ≠ .reset :=
  ⟨⟨rfl, rfl, rfl, rfl, rfl, fun _ => rfl⟩, by decide, by decide⟩

theorem wit_ZerosForceTheParserIdle : ParserInv (inFrameAt 4 1279) ∧ 1025 ≤ 1025 :=
  ⟨inFrame_inv _ _ (by decide) (by decide) (by decide), by decide⟩

theorem wit_SendThreeOutcomes :
    1024 < (List.replicate 1025 (0xAA : Byte)).length ∧
    ((List.replicate 1024 (0xAA : Byte)).length ≤ 1024 ∧ full.oq.length = full.cfg.qDepth) ∧
    ready.oq.length ≠ ready.cfg.qDepth :=
  ⟨too_long, ⟨long_ok, by decide⟩, by decide⟩

theorem wit_QueueSaturation :
    full.oq.length ≤ full.cfg.qDepth ∧ full.oq.length = full.cfg.qDepth ∧
      (∀ x ∈ [((0x02 : Byte), ([0x03] : List Byte))], x.2.length ≤ 1024) := by
  decide

theorem wit_FlushDrainsInOrder :
    { full with pending := [.flush] }.cfg.wf ∧ { full with pending := [.flush] }.pending = .flush :: [] := by decide

theorem wit_TransmittedFramesAreValid : ready.inFrame = false ∧ RecordOk ready.cfg heartbeatRecord := by
  refine ⟨rfl, ?_⟩
  unfold RecordOk
  decide

/-- Two steps that are not `RESET`: one that drains, one that enqueues. -/
theorem wit_QueueIsFirstInFirstOut :
    (∃ t, step { full with pending := [.flush] } = .next t ∧ NotReset { full with pending := [.flush] }) ∧
    (∃ t, step (readyFor [.host (.send 0x01 [])]) = .next t ∧ NotReset (readyFor [.host (.send 0x01 [])])) :=
  ⟨⟨_, rfl, notReset_of _ _ _ rfl nofun⟩, ⟨_, rfl, notReset_of _ _ _ rfl nofun⟩⟩

/-- Refused for the identifier, refused for the internal handler, done. -/
theorem wit_BindOutcomes :
    (readyFor [.host (.bind 0x42 (.ext 1))]).cfg.wf ∧ (∀ x, ready.cfg.cmd x ≠ 0x42) ∧
    ((.setState : Handler) = .setState ∧ (0x02 : Byte) ≠ 0x07) ∧
    ((∃ x, ready.cfg.cmd x = 0x07) ∧ ((.setState : Handler) = .setState → (0x07 : Byte) = 0x07)) ∧
    ((∃ x, ready.cfg.cmd x = 0x02) ∧ ∀ r, Handler.ext 255 = .ext r → r < 2 ^ ready.cfg.routeW) := by
  refine ⟨by decide, default_cmd_ne, by decide, ⟨⟨.setState, rfl⟩, fun _ => rfl⟩, ⟨.setExpression, rfl⟩, fun r h => ?_⟩
  cases h
  decide

theorem wit_NoUnbind :
    ∃ t, step (readyFor [.flush]) = .next t ∧ NotReset (readyFor [.flush]) ∧ (readyFor [.flush]).dtab.get 0x07 ≠ .unbound :=
  ⟨_, rfl, notReset_of _ _ _ rfl nofun, by decide⟩

theorem wit_UnboundCommandIsReported :
    ready.dtab.get (ready.cfg.cmd (Instr.heartbeat []).command) = .unbound ∧ ready.dtab.get 0x42 = .unbound := by decide

theorem wit_BoundCommandIsRouted :
    (routed 0x01 1).dtab.get ((routed 0x01 1).cfg.cmd (Instr.heartbeat [0x3C]).command) = .bound (.ext 1) ∧
    (routed 0x07 5).dtab.get ((routed 0x07 5).cfg.cmd (Instr.setState [0x05]).command) = .bound (.ext 5) := by
  decide

theorem wit_BoundCommandWithEmptyReply :
    (Instr.sendImage (List.replicate 1024 0)).wellFormed = true ∧ (routed 0x06 6).reply = [] ∧
    (routed 0x06 6).dtab.get ((routed 0x06 6).cfg.cmd Command.sendImage) = .bound (.ext 6) :=
  ⟨test_longest_payload_is_well_formed, by decide, by decide⟩

theorem wit_ExternalHandlerAuthority : ∃ t, performReply [.setBatteryLevel 200, .send 0x01 []] ready = t := ⟨_, rfl⟩

/-- Bound to a route; not bound to the internal handler. Bound to the internal handler; not to a route. -/
theorem wit_CommandFrame :
    (∃ t, exec (.heartbeat []) (routed 0x01 1) = .next t ∧
      (routed 0x01 1).dtab.get ((routed 0x01 1).cfg.cmd (Instr.heartbeat []).command) ≠ .bound .setState) ∧
    (∃ t, exec (.setState [0x05]) ready = .next t ∧
      ∀ r, ready.dtab.get (ready.cfg.cmd (Instr.setState [0x05]).command) ≠ .bound (.ext r)) := by
  refine ⟨⟨_, rfl, by decide⟩, ⟨_, rfl, fun r h => ?_⟩⟩
  have e : ready.dtab.get (ready.cfg.cmd (Instr.setState [0x05]).command) = .bound .setState := by decide
  rw [e] at h
  cases h

theorem ready_enc_ne (r : RealState) : ready.cfg.enc r ≠ 0x06 ∧ ready.cfg.enc r ≠ 0x00 := by cases r <;> decide

theorem wit_InvalidStateRequestIsRejected :
    ready.dtab.get 0x07 = .bound .setState ∧ (∀ r, ready.cfg.enc r ≠ 0x06) ∧ (∀ r, ready.cfg.enc r ≠ 0x00) :=
  ⟨by decide, fun r => (ready_enc_ne r).1, fun r => (ready_enc_ne r).2⟩

theorem wit_SetStateTransition :
    ready.cfg.wf ∧ ready.dtab.get 0x07 = .bound .setState ∧ ready.currentState ≠ ready.cfg.enc .talk ∧
      ready.oq.length ≠ ready.cfg.qDepth := by
  decide

theorem wit_SetStateWithFullQueue :
    full.cfg.wf ∧ full.dtab.get 0x07 = .bound .setState ∧ full.currentState ≠ full.cfg.enc .talk ∧
      full.oq.length = full.cfg.qDepth := by
  decide

theorem wit_SelfTransitionChangesNothing :
    ready.currentState = ready.cfg.enc .sleep ∧ ready.cfg.wf ∧ ready.dtab.get 0x07 = .bound .setState := by decide

theorem wit_TransitionCoverage :
    ready.currentState ≠ ready.cfg.enc .wake ∧ ready.oq.length ≠ ready.cfg.qDepth := by decide

/-- The threshold, and one millisecond before it in the hypothesis that the clause negates. -/
theorem wit_StateTransitionTable :
    ready.cfg.wf ∧ ready.dtab.get 0x07 = .bound .setState ∧
    ((2000 : Nat) : Int) = ((({ ready with nowMs := 2000 }.nowMs : Nat) : Int) -
      (({ ready with nowMs := 2000 }.stateEnterTimestamp : Nat) : Int)) % 2 ^ ready.cfg.timeW ∧
    { ready with nowMs := 2000 }.running = true := by
  decide

/-- RDY in `WAKE`, entered at a time, with one `TIMER_CHECK` to come. -/
def wakeSince (entered now : Time) : State :=
  { readyFor [.timerCheck now] with currentState := 2, stateEnterTimestamp := entered }

/-- In `WAKE` since 1000: at the threshold with room and with a full queue, and one millisecond before it; and at 4999 with a
timestamp of 5000 (time stepped back, T-BC-25), which is 2^32 - 1 elapsed. -/
theorem wit_TimerLeavesWake :
    ((wakeSince 1000 3000).cfg.wf ∧ (wakeSince 1000 3000).pending = .timerCheck 3000 :: [] ∧
      ((2000 : Nat) : Int) = (((3000 : Nat) : Int) - (((wakeSince 1000 3000).stateEnterTimestamp : Nat) : Int)) % 2 ^ 32 ∧
      (wakeSince 1000 3000).running = true ∧ (wakeSince 1000 3000).currentState = ready.cfg.stWake ∧
      (wakeSince 1000 3000).oq.length ≠ ready.cfg.qDepth) ∧
    (full.cfg.wf ∧ full.running = true ∧ full.oq.length = full.cfg.qDepth) ∧
    ((1999 : Nat) : Int) = (((2999 : Nat) : Int) - (((wakeSince 1000 2999).stateEnterTimestamp : Nat) : Int)) % 2 ^ 32 ∧
    ((4294967295 : Nat) : Int) = (((4999 : Nat) : Int) - (((wakeSince 5000 4999).stateEnterTimestamp : Nat) : Int)) % 2 ^ 32 := by
  decide

theorem wit_SettersWriteTheirRegister :
    (readyFor [.host (.setBatteryLevel 100)]).cfg.wf ∧ (100 : Byte).toNat ≤ 100 ∧ 100 < (101 : Byte).toNat ∧
    (readyFor [.host (.setServoAngles 0x012C 0xFFFF)]).pending = .host (.setServoAngles 0x012C 0xFFFF) :: [] ∧
    (readyFor [.host (.setRunning false)]).pending = .host (.setRunning false) :: [] := by
  decide

/-- `INIT` after reset, a second `INIT` in `SLEEP`, and `INIT` from `TALK` with room and with a full queue. -/
theorem wit_InitStep :
    ({ State.reset with pending := [.init 7] }.cfg.wf ∧ { State.reset with pending := [.init 7] }.pending = .init 7 :: [] ∧
      State.reset.currentState ≠ Config.default.stSleep ∧ State.reset.oq.length ≠ Config.default.qDepth) ∧
    (readyFor [.init 7]).currentState = ready.cfg.stSleep ∧
    { readyFor [.init 7] with currentState := 5 }.currentState ≠ ready.cfg.stSleep ∧
    ({ full with currentState := 5 }.currentState ≠ full.cfg.stSleep ∧ full.oq.length = full.cfg.qDepth) := by
  decide

/-- A step that changes the state and one that does not. -/
theorem wit_IdleIsNeverReentered :
    (∃ t, step { State.reset with pending := [.init 7] } = .next t ∧ NotReset { State.reset with pending := [.init 7] }) ∧
    (∃ t, step (readyFor [.flush]) = .next t ∧ NotReset (readyFor [.flush])) :=
  ⟨⟨_, rfl, notReset_of _ _ _ rfl nofun⟩, ⟨_, rfl, notReset_of _ _ _ rfl nofun⟩⟩

theorem wit_TransitionRegistersChangeTogether :
    ∃ t, step { State.reset with pending := [.init 7] } = .next t ∧ NotReset { State.reset with pending := [.init 7] } :=
  ⟨_, rfl, notReset_of _ _ _ rfl nofun⟩

theorem wit_ResetStep :
    { full with pending := [.reset] }.cfg.wf ∧ { full with pending := [.reset] }.pending = .reset :: [] := by decide

theorem wit_StateAfterResetThenInit :
    (readyFor [.reset, .init 7]).cfg = Config.default ∧ ∃ u, step (readyFor [.reset, .init 7]) = .next u :=
  ⟨rfl, _, rfl⟩

theorem wit_HostSendStep :
    (readyFor [.host (.send 0x09 [0x2C])]).cfg.wf ∧ (readyFor [.host (.send 0x09 [0x2C])]).pending =
      .host (.send 0x09 [0x2C]) :: [] := by
  decide

/-- The parser of RDY after `AA 07 01 00 05`, with one more byte scheduled. -/
def midSetState (b : Byte) : State :=
  { ready with inFrame := true, pos := 5, rxCommand := 0x07, rxLength := 1, rxbuf := [(0, 0x05)],
               pending := [.rxByte ⟨b, 1000, []⟩] }

/-- A byte that completes nothing, one that completes an invalid frame (T-FT-6), one that completes a valid one (T-FT-2). -/
theorem wit_RxByteStep :
    (midSetState 0x3C).cfg.wf ∧ (midSetState 0x3C).pending = .rxByte ⟨0x3C, 1000, []⟩ :: [] ∧
    (feed 0xAA ready).2 = none ∧
    (∃ u f, feed 0x3D (midSetState 0x3D) = (u, some f) ∧ f.valid = false) ∧
    (∃ u f, feed 0x3C (midSetState 0x3C) = (u, some f) ∧ f.valid = true) :=
  ⟨by decide, rfl, by decide, ⟨_, _, rfl, by decide⟩, ⟨_, _, rfl, by decide⟩⟩

theorem wit_StepRunsDecodedInstruction :
    (midSetState 0x3C).cfg.wf ∧ (midSetState 0x3C).inFrame = true ∧
    (midSetState 0x3C).pos.toNat = 4 + (midSetState 0x3C).rxLength.toNat ∧
    decode (midSetState 0x3C).cfg (heldBytes (midSetState 0x3C) ++ [0x3C]) = .ok (.setState [0x05]) [] ∧
    (midSetState 0x3C).pending = .rxByte ⟨0x3C, 1000, []⟩ :: [] := by
  decide

theorem wit_FrameOnTheWireRunsItsInstruction :
    ready.cfg.wf ∧ ready.inFrame = false ∧ (Instr.setState [0x05]).wellFormed = true ∧
    (readyFor ((encode ready.cfg (.setState [0x05])).map (fun b => Op.rxByte ⟨b, 9, []⟩) ++ [])).pending =
      (encode ready.cfg (.setState [0x05])).map (fun b => Op.rxByte ⟨b, 9, []⟩) ++ [] :=
  ⟨by decide, rfl, by decide, rfl⟩

theorem wit_NoStepStops : ready.cfg.wf ∧ ¬ { Config.default with qDepth := 0 }.wf := by decide

theorem wit_StreamsAreAppendOnly : ∃ t, step (readyFor [.reset]) = .next t := ⟨_, rfl⟩

theorem wit_WirePeerAuthority :
    (midSetState 0x3C).pending = .rxByte ⟨0x3C, 1000, []⟩ :: [] ∧ ∃ t, step (midSetState 0x3C) = .next t :=
  ⟨rfl, _, rfl⟩

/-- RDY inside a set-state frame meets the invariants, and the step of its last byte answers. -/
theorem wit_StepKeepsInvariant : Inv (midSetState 0x3C) ∧ ∃ t, step (midSetState 0x3C) = .next t := by
  refine ⟨⟨by decide, ?_, ⟨by decide, fun r h => absurd h List.not_mem_nil⟩, ?_, ⟨fun c hc => ?_, fun c hc => ?_⟩,
    ⟨by decide, by decide, by decide, by decide, fun c r hc => ?_⟩, ?_⟩, _, rfl⟩
  · exact ⟨⟨fun h => absurd h (by decide), fun _ => by decide⟩, fun _ _ => by decide⟩
  · refine ⟨by decide, .inr ⟨.sleep, rfl⟩, .inl rfl, .inr (by decide), fun r => ?_, fun _ => rfl⟩
    cases r <;> decide
  · have hne : c ≠ 0x07 := by rintro rfl; exact absurd hc (by decide)
    exact (Dtab.get_put_ne _ _ hne).trans (Dtab.get_empty c)
  · by_contra hne
    have e : (midSetState 0x3C).dtab.get c = .unbound := (Dtab.get_put_ne _ _ hne).trans (Dtab.get_empty c)
    rw [e] at hc
    cases hc
  · have e : (midSetState 0x3C).dtab.get c = if c = 0x07 then .bound .setState else .unbound :=
      (Dtab.get_put _ _ _ _).trans (by rw [Dtab.get_empty])
    rw [e] at hc
    split at hc <;> cases hc
  · exact ⟨by decide, by decide⟩

end Sys2Proof.Tests
end

/-! The four output streams only grow (00_scope.md R15; 10_state.md R49; 70_reset_and_hazards.md R301). -/

namespace Sys2Proof.Machine

/-- What was emitted on `TX`, `DISP`, `EXPR` and `DIAG` in `s` is still the beginning of what was emitted in `t`. -/
structure StreamsGrow (s t : State) : Prop where
  tx : s.tx <+: t.tx
  disp : s.disp <+: t.disp
  expr : s.expr <+: t.expr
  diag : s.diag <+: t.diag

namespace StreamsGrow

variable {s t u : State}

/-- An update that leaves the four streams as they are. For the named updates each equation is true by `rfl`. -/
theorem of_unchanged (htx : t.tx = s.tx := by rfl) (hdisp : t.disp = s.disp := by rfl)
    (hexpr : t.expr = s.expr := by rfl) (hdiag : t.diag = s.diag := by rfl) : StreamsGrow s t :=
  ⟨htx ▸ List.prefix_rfl, hdisp ▸ List.prefix_rfl, hexpr ▸ List.prefix_rfl, hdiag ▸ List.prefix_rfl⟩

theorem refl (s : State) : StreamsGrow s s := of_unchanged

theorem trans (h : StreamsGrow s t) (h' : StreamsGrow t u) : StreamsGrow s u :=
  ⟨h.tx.trans h'.tx, h.disp.trans h'.disp, h.expr.trans h'.expr, h.diag.trans h'.diag⟩

/-! The four updates that emit. -/

theorem raise (s : State) (d : Diag) : StreamsGrow s (s.raise d) :=
  ⟨List.prefix_rfl, List.prefix_rfl, List.prefix_rfl, List.prefix_append ..⟩

theorem emitTx (s : State) (bs : List Byte) : StreamsGrow s (s.emitTx bs) :=
  ⟨List.prefix_append .., List.prefix_rfl, List.prefix_rfl, List.prefix_rfl⟩

theorem emitExpr (s : State) (e : Byte) : StreamsGrow s (s.emitExpr e) :=
  ⟨List.prefix_rfl, List.prefix_rfl, List.prefix_append .., List.prefix_rfl⟩

theorem emitDisp (s : State) (e : DispEvent) : StreamsGrow s (s.emitDisp e) :=
  ⟨List.prefix_rfl, List.prefix_append .., List.prefix_rfl, List.prefix_rfl⟩

/-! The operations that updates are combined in. -/

theorem feed (b : Byte) (s : State) : StreamsGrow s (feed b s).1 := by
  rcases feed_cases b s with ⟨_, _, e⟩ | ⟨_, _, e⟩ | ⟨_, u, hu, ho⟩ | ⟨_, _, _, _, _, e⟩
  · rw [e]; exact .refl s
  · rw [e]; exact .of_unchanged
  · have stored : StreamsGrow s u := by
      rcases hu with ⟨_, rfl⟩ | ⟨_, rfl⟩ | ⟨_, rfl⟩ | ⟨_, _, _, _, rfl⟩
      · exact .of_unchanged
      · exact .of_unchanged
      · exact .of_unchanged
      · split
        · exact .of_unchanged
        · exact .refl s
    rcases ho with ⟨_, e⟩ | ⟨_, e⟩ <;> rw [e]
    · exact (stored.trans (.raise u _)).trans .of_unchanged
    · exact stored.trans .of_unchanged
  · rw [e]; exact .of_unchanged

theorem sendExternal (c : Byte) (p : List Byte) (s : State) : StreamsGrow s (sendExternal c p s) := by
  have sent : StreamsGrow s (send c p s).1 := by
    rcases send_cases c p s with ⟨_, e⟩ | ⟨_, _, e⟩ | ⟨_, _, e⟩ <;> rw [e]
    · exact .raise s _
    · exact .refl s
    · exact .of_unchanged
  exact sent.trans .of_unchanged

theorem flush (s : State) : StreamsGrow s (flush s) := (emitTx s _).trans .of_unchanged

theorem transition (r : RealState) (s : State) : StreamsGrow s (transition r s) := by
  have entered : StreamsGrow s ((s.enterState (s.cfg.enc r) (exprOf r)).emitExpr (exprOf r)) :=
    trans .of_unchanged (.emitExpr (s.enterState _ _) _)
  rcases transition_cases r s with ⟨_, e⟩ | ⟨_, _, e⟩ | ⟨_, _, e⟩ <;> rw [e]
  · exact .refl s
  · exact entered.trans (.raise _ _)
  · exact entered.trans .of_unchanged

theorem hSetState (p : List Byte) (s : State) : StreamsGrow s (hSetState p s) := by
  rcases hSetState_cases p s with ⟨_, e⟩ | ⟨_, _, _, _, e⟩ | ⟨_, _, r, _, _, e⟩ <;> rw [e]
  · exact .raise s _
  · exact .raise s _
  · exact .transition r s

theorem setBatteryLevel (v : Byte) (s : State) : StreamsGrow s (setBatteryLevel v s) := by
  rcases setBatteryLevel_cases v s with ⟨_, e⟩ | ⟨_, e⟩ <;> rw [e]
  · exact .of_unchanged
  · exact .raise s _

theorem timerCheck (s : State) : StreamsGrow s (timerCheck s) := by
  rcases timerCheck_cases s with ⟨_, _, _, e⟩ | ⟨_, e⟩ <;> rw [e]
  · exact .transition _ s
  · exact .refl s

theorem bind (c : Byte) (h : Handler) (s : State) : StreamsGrow s (bind c h s) := by
  rcases bind_cases c h s with ⟨_, e⟩ | ⟨_, _, e⟩ <;> rw [e]
  · exact .raise s _
  · exact .of_unchanged

theorem performHandlerOp (op : HandlerOp) (s : State) : StreamsGrow s (performHandlerOp op s) := by
  cases op with
  | send c p => exact .sendExternal c p s
  | setBatteryLevel v => exact .setBatteryLevel v s
  | setServoAngles h v => exact .of_unchanged

theorem performReply (ops : List HandlerOp) (s : State) : StreamsGrow s (performReply ops s) :=
  performReply_induction (fun op u h => h.trans (.performHandlerOp op u)) ops s (.refl s)

theorem dispatch (c : Byte) (p : List Byte) (s : State) : StreamsGrow s (dispatch c p s) := by
  rcases dispatch_cases c p s with ⟨_, e⟩ | ⟨_, e⟩ | ⟨r, _, e⟩ <;> rw [e]
  · exact .raise s _
  · exact .hSetState p s
  · exact (emitDisp s _).trans (.performReply _ _)

theorem performHostOp (op : HostOp) (s : State) : StreamsGrow s (performHostOp op s) := by
  cases op with
  | send c p => exact .sendExternal c p s
  | setBatteryLevel v => exact .setBatteryLevel v s
  | setServoAngles h v => exact .of_unchanged
  | setRunning b => exact .of_unchanged
  | bind c h => exact .bind c h s

theorem initOp (s : State) : StreamsGrow s (initOp s) :=
  ((bind _ _ s).trans (.transition .sleep _)).trans .of_unchanged

/-- `RESET` clears no stream (R301). -/
theorem resetOp (s : State) : StreamsGrow s (resetOp s) := of_unchanged

/-! A step. -/

theorem of_stepKind (h : StepKind s t) : StreamsGrow s t := by
  have fed (s : State) (x : RxSample) :
      StreamsGrow s (Machine.feed x.byte ((s.sampleNow x.now).withReply x.reply)).1 :=
    trans .of_unchanged (.feed x.byte _)
  cases h with
  | idle => exact .refl s
  | init now => exact trans .of_unchanged (.initOp (s.sampleNow now))
  | host op => exact .performHostOp op s
  | fed x => exact fed s x
  | dispatched x f _ => exact (fed s x).trans (.dispatch _ _ _)
  | mismatch x f _ => exact (fed s x).trans (.raise _ _)
  | flush => exact .flush s
  | timer now => exact trans .of_unchanged (.timerCheck (s.sampleNow now))

theorem of_step (h : step s = .next t) : StreamsGrow s t := by
  obtain ⟨_, ops, ⟨_, rfl⟩ | hk⟩ := step_cases h
  · exact trans .of_unchanged (.resetOp (s.withPending ops))
  · exact trans .of_unchanged (of_stepKind hk)

end StreamsGrow

/-- Settles O57: every atomic operation of a step, `RESET` included, lets the four streams grow only. -/
theorem streamsAreAppendOnly : Obligations.StreamsAreAppendOnly := by
  intro s t h
  obtain ⟨htx, hdisp, hexpr, hdiag⟩ := StreamsGrow.of_step h
  exact ⟨htx, hdisp, hexpr, hdiag⟩

end Sys2Proof.Machine

/-! The invariants of R52 at reset and along a step (10_state.md R52; 00_scope.md R6). -/

namespace Sys2Proof.Machine

/-- An encoding that R104 allows fits the state registers, by the constraint on the configuration (log 5). -/
theorem LegalState.fits {cfg : Config} {v : Byte} (hw : cfg.wf) (hv : LegalState cfg v) : v.toNat < 2 ^ cfg.stateW := by
  obtain ⟨_, _, _, _, hfit⟩ := hw
  rcases hv with rfl | ⟨r, rfl⟩
  · exact hfit _ List.mem_cons_self
  · exact hfit _ (List.mem_cons_of_mem _ (List.mem_map_of_mem (Config.mem_realAll r)))

/-- The status record of a state meets R52 (d): it is the one `SEND` builds. -/
theorem statusRecord_ok (s : State) : RecordOk s.cfg (statusRecord s s.currentState s.currentExpressionId) := by
  rw [← mkRecord_status]
  exact mkRecord_ok s.cfg _ (by simp [statusPayload, statusLayout, bytes16])

namespace Inv

variable {s t : State}

/-! Reset. -/

/-- The reset values meet every invariant, whatever the configuration, if it is legal. -/
theorem resetWith {cfg : Config} (hw : cfg.wf) : Inv (State.resetWith cfg) where
  config := hw
  parser := ⟨⟨fun _ => rfl, fun h => Bool.noConfusion h⟩, fun h => Bool.noConfusion h⟩
  queue := ⟨Nat.zero_le _, fun _ h => absurd h List.not_mem_nil⟩
  controller :=
    have ⟨_, _, _, hbattery, _⟩ := hw
    ⟨hbattery, .inl rfl, .inl rfl, .inl ⟨rfl, rfl⟩, fun r h => absurd h.symm (Config.enc_ne_idle hw r),
      fun _ => rfl⟩
  table := ⟨fun c _ => Dtab.get_empty c, fun c h => by cases (Dtab.get_empty c).symm.trans h⟩
  widths := ⟨Nat.two_pow_pos _, Nat.two_pow_pos _, LegalState.fits hw (.inl rfl), LegalState.fits hw (.inl rfl),
    fun c _ h => by cases (Dtab.get_empty c).symm.trans h⟩
  buffer := reset_buffer

/-- `RESET` keeps the time input, which fits already (R301). -/
theorem resetOp (h : Inv s) : Inv (resetOp s) :=
  { resetWith h.config with widths := ⟨h.widths.1, (resetWith h.config).widths.2⟩ }

/-! The updates that write nothing an invariant reads. -/

theorem raise (h : Inv s) (d : Diag) : Inv (s.raise d) := { h with }
theorem emitTx (h : Inv s) (bs : List Byte) : Inv (s.emitTx bs) := { h with }
theorem emitExpr (h : Inv s) (e : Byte) : Inv (s.emitExpr e) := { h with }
theorem emitDisp (h : Inv s) (e : DispEvent) : Inv (s.emitDisp e) := { h with }
theorem answerSend (h : Inv s) (r : SendResult) : Inv (s.answerSend r) := { h with }
theorem withCommand (h : Inv s) (b : Byte) : Inv (s.withCommand b) := { h with }
theorem withReply (h : Inv s) (ops : List HandlerOp) : Inv (s.withReply ops) := { h with }
theorem withPending (h : Inv s) (ops : List Op) : Inv (s.withPending ops) := { h with }
theorem withServos (h : Inv s) (x y : Half) : Inv (s.withServos x y) := { h with }
theorem withRunning (h : Inv s) (b : Bool) : Inv (s.withRunning b) := { h with }

/-! The updates that write what one or two of the invariants read. -/

theorem sampleNow (h : Inv s) (now : Time) : Inv (s.sampleNow now) :=
  { h with widths := ⟨sampleNow_fits s now, h.widths.2⟩ }

theorem toIdle (h : Inv s) : Inv s.toIdle :=
  { h with parser := ⟨⟨fun _ => rfl, fun h => Bool.noConfusion h⟩, fun h => Bool.noConfusion h⟩ }

theorem atPos (h : Inv s) {k : Nat} (h1 : 1 ≤ k) (hk : k ≤ 1028) (hlen : 4 ≤ k → k ≤ 4 + s.rxLength.toNat) :
    Inv (s.atPos k) := by
  have hpos : (s.atPos k).pos.toNat = k := by simp; omega
  exact { h with parser := ⟨⟨fun h => Bool.noConfusion h, fun _ => hpos.symm ▸ ⟨h1, hk⟩⟩, fun _ => hpos.symm ▸ hlen⟩ }

/-- R52 (b) says nothing while the header is still being read. -/
theorem withLength (h : Inv s) (n : Half) (hpos : s.pos.toNat < 4) : Inv (s.withLength n) :=
  { h with parser := ⟨h.parser.1, fun _ hge => absurd hge (Nat.not_le.mpr hpos)⟩ }

theorem storeRx (h : Inv s) {i : Nat} (b : Byte) (hi : i < 1024) : Inv (s.storeRx i b) := by
  obtain ⟨hwf, hindex⟩ := h.buffer
  refine { h with buffer := ⟨Memory.wf_write hwf i b, fun c hc => ?_⟩ }
  rcases Memory.mem_write hc with rfl | hc
  · exact hi
  · exact hindex c hc

/-- A legal frame is enqueued where there is room (R52 (c), (d)). -/
theorem enqueue (h : Inv s) {r : FrameRec} (hroom : s.oq.length ≠ s.cfg.qDepth) (hr : RecordOk s.cfg r) :
    Inv (s.enqueue r) := by
  obtain ⟨hdepth, hrecords⟩ := h.queue
  refine { h with queue := ⟨?_, fun q hq => ?_⟩ }
  · simp; omega
  · rcases List.mem_append.mp hq with hq | hq
    · exact hrecords q hq
    · exact List.mem_singleton.mp hq ▸ hr

theorem emptyQueue (h : Inv s) : Inv s.emptyQueue :=
  { h with queue := ⟨Nat.zero_le _, fun _ hr => absurd hr List.not_mem_nil⟩ }

theorem withBattery (h : Inv s) {v : Byte} (hv : v.toNat ≤ 100) : Inv (s.withBattery v) :=
  { h with controller := ⟨hv, h.controller.2⟩ }

/-- A command of the closed set is bound, the internal handler to set-state only, a route that fits (R52 (i), R34). -/
theorem setEntry (h : Inv s) {c : Byte} {x : Handler} (hc : s.cfg.inCmdSet c = true)
    (hself : x = .setState → c = Config.cmdSetState) (hfit : ∀ r, x = .ext r → r < 2 ^ s.cfg.routeW) :
    Inv (s.setEntry c (.bound x)) := by
  obtain ⟨hclosed, hinternal⟩ := h.table
  obtain ⟨hnow, hstamp, hcur, hprev, hroute⟩ := h.widths
  have hget (d : Byte) : (s.setEntry c (.bound x)).dtab.get d = if d = c then .bound x else s.dtab.get d :=
    Dtab.get_put s.dtab c d _
  refine { h with table := ⟨fun d hd => ?_, fun d hd => ?_⟩, widths := ⟨hnow, hstamp, hcur, hprev, fun d r hd => ?_⟩ }
  · have hne : d ≠ c := by rintro rfl; exact absurd (hc.symm.trans hd) (by decide)
    rw [hget, if_neg hne]
    exact hclosed d hd
  · rw [hget] at hd
    split at hd
    next heq => cases hd; exact heq.trans (hself rfl)
    next => exact hinternal d hd
  · rw [hget] at hd
    split at hd
    next => cases hd; exact hfit r rfl
    next => exact hroute d r hd

/-- A real state is entered from another one, with its own expression (R52 (f) to (h)). -/
theorem enterState (h : Inv s) {r : RealState} (hne : s.currentState ≠ s.cfg.enc r) :
    Inv (s.enterState (s.cfg.enc r) (exprOf r)) := by
  obtain ⟨hbattery, hcurrent, _⟩ := h.controller
  obtain ⟨hnow, _, hcur, _, hroute⟩ := h.widths
  have hidle := Config.enc_ne_idle h.config r
  exact { h with
    controller := ⟨hbattery, .inr ⟨r, rfl⟩, hcurrent, .inr ⟨hne.symm, hidle⟩,
      fun q e => congrArg exprOf (Config.enc_inj h.config e), fun e => absurd e hidle⟩
    widths := ⟨hnow, hnow, LegalState.fits h.config (.inr ⟨r, rfl⟩), hcur, hroute⟩ }

/-! The operations that updates are combined in. -/

/-- `FEED`: the state with the consumed byte stored meets the invariants, and its `rx_length` allows the position after it. -/
theorem feed (b : Byte) (h : Inv s) : Inv (feed b s).1 := by
  rcases feed_cases b s with ⟨_, _, e⟩ | ⟨_, _, e⟩ | ⟨hf, u, hu, ho⟩ | ⟨_, _, _, _, _, e⟩
  · rw [e]; exact h
  · rw [e]; exact h.atPos (by omega) (by omega) (by omega)
  · obtain ⟨hge, hle⟩ := h.parser.1.2 hf
    have stored : Inv u ∧ (4 ≤ s.pos.toNat + 1 → s.pos.toNat + 1 ≤ 4 + u.rxLength.toNat) := by
      rcases hu with ⟨hp, rfl⟩ | ⟨hp, rfl⟩ | ⟨hp, rfl⟩ | ⟨_, _, _, hp, rfl⟩
      · exact ⟨h.withCommand b, by omega⟩
      · exact ⟨h.withLength _ (by omega), by omega⟩
      · exact ⟨h.withLength _ (by omega), by omega⟩
      · split
        next hi => exact ⟨h.storeRx b hi, fun _ => by simp; omega⟩
        next => exact ⟨h, by omega⟩
    obtain ⟨hstored, hnext⟩ := stored
    rcases ho with ⟨_, e⟩ | ⟨hlast, e⟩ <;> rw [e]
    · exact (hstored.raise _).toIdle
    · exact hstored.atPos (by omega) (by omega) hnext
  · rw [e]; exact h.toIdle

theorem sendExternal (c : Byte) (p : List Byte) (h : Inv s) : Inv (sendExternal c p s) := by
  have sent : Inv (send c p s).1 := by
    rcases send_cases c p s with ⟨_, e⟩ | ⟨_, _, e⟩ | ⟨hp, hroom, e⟩ <;> rw [e]
    · exact h.raise _
    · exact h
    · exact h.enqueue hroom (mkRecord_ok s.cfg c hp)
  exact sent.answerSend _

theorem flush (h : Inv s) : Inv (flush s) := (h.emitTx _).emptyQueue

theorem transition (r : RealState) (h : Inv s) : Inv (transition r s) := by
  rcases transition_cases r s with ⟨_, e⟩ | ⟨hne, _, e⟩ | ⟨hne, hroom, e⟩ <;> rw [e]
  · exact h
  · exact ((h.enterState hne).emitExpr _).raise _
  · exact ((h.enterState hne).emitExpr _).enqueue hroom (statusRecord_ok ((s.enterState _ _).emitExpr _))

theorem hSetState (p : List Byte) (h : Inv s) : Inv (hSetState p s) := by
  rcases hSetState_cases p s with ⟨_, e⟩ | ⟨_, _, _, _, e⟩ | ⟨_, _, r, _, _, e⟩ <;> rw [e]
  · exact h.raise _
  · exact h.raise _
  · exact h.transition r

theorem setBatteryLevel (v : Byte) (h : Inv s) : Inv (setBatteryLevel v s) := by
  rcases setBatteryLevel_cases v s with ⟨hv, e⟩ | ⟨_, e⟩ <;> rw [e]
  · exact h.withBattery hv
  · exact h.raise _

theorem timerCheck (h : Inv s) : Inv (timerCheck s) := by
  rcases timerCheck_cases s with ⟨_, _, _, e⟩ | ⟨_, e⟩ <;> rw [e]
  · exact h.transition .listen
  · exact h

theorem bind (c : Byte) (x : Handler) (h : Inv s) : Inv (bind c x s) := by
  rcases bind_cases c x s with ⟨_, e⟩ | ⟨hc, hself, e⟩ <;> rw [e]
  · exact h.raise _
  · cases x with
    | setState => exact h.setEntry hc (fun _ => hself rfl) (fun _ hr => by cases hr)
    | ext n =>
      refine h.setEntry hc (fun hx => by cases hx) (fun r hr => ?_)
      cases hr
      exact Nat.mod_lt n (Nat.two_pow_pos _)

theorem performHandlerOp (op : HandlerOp) (h : Inv s) : Inv (performHandlerOp op s) := by
  cases op with
  | send c p => exact h.sendExternal c p
  | setBatteryLevel v => exact h.setBatteryLevel v
  | setServoAngles x y => exact h.withServos x y

theorem performReply (ops : List HandlerOp) (h : Inv s) : Inv (performReply ops s) :=
  performReply_induction (fun op _ hu => hu.performHandlerOp op) ops s h

theorem dispatch (c : Byte) (p : List Byte) (h : Inv s) : Inv (dispatch c p s) := by
  rcases dispatch_cases c p s with ⟨_, e⟩ | ⟨_, e⟩ | ⟨r, _, e⟩ <;> rw [e]
  · exact h.raise _
  · exact h.hSetState p
  · exact (h.emitDisp _).performReply _

theorem performHostOp (op : HostOp) (h : Inv s) : Inv (performHostOp op s) := by
  cases op with
  | send c p => exact h.sendExternal c p
  | setBatteryLevel v => exact h.setBatteryLevel v
  | setServoAngles x y => exact h.withServos x y
  | setRunning b => exact h.withRunning b
  | bind c x => exact h.bind c x

theorem initOp (h : Inv s) : Inv (initOp s) := ((h.bind _ _).transition .sleep).withRunning true

/-! A step. -/

theorem of_stepKind (h : Inv s) (hk : StepKind s t) : Inv t := by
  have fed (x : RxSample) : Inv (Machine.feed x.byte ((s.sampleNow x.now).withReply x.reply)).1 :=
    ((h.sampleNow x.now).withReply x.reply).feed x.byte
  cases hk with
  | idle => exact h
  | init now => exact (h.sampleNow now).initOp
  | host op => exact h.performHostOp op
  | fed x => exact fed x
  | dispatched x f _ => exact (fed x).dispatch _ _
  | mismatch x f _ => exact (fed x).raise _
  | flush => exact h.flush
  | timer now => exact (h.sampleNow now).timerCheck

theorem of_step (h : Inv s) (hs : step s = .next t) : Inv t := by
  obtain ⟨_, ops, ⟨_, rfl⟩ | hk⟩ := step_cases hs
  · exact (h.withPending ops).resetOp
  · exact (h.withPending ops).of_stepKind hk

end Inv

/-- Settles O60: each atomic operation of a step, `RESET` included, keeps all of R52 together. -/
theorem stepKeepsInvariant : Obligations.StepKeepsInvariant := fun _ _ h hs => h.of_step hs

/-- Settles O59: the default configuration is legal, and reset under a legal configuration meets R52. -/
theorem invariantAtReset : Obligations.InvariantAtReset := Inv.resetWith Config.default_wf

/-- Settles O48: each register by its reset value, the table entry by entry. -/
theorem resetValues : Obligations.ResetValues :=
  ⟨rfl, rfl, rfl, Dtab.get_empty, rfl, rfl, rfl, rfl, rfl, rfl, rfl, rfl⟩

/-! The hardware bits of a table entry (10_state.md R33; 30_encoding.md R108). -/

/-- The one bit on top of `w` others. -/
theorem getLsbD_bit_append {w : Nat} (a : BitVec 1) (x : BitVec w) : (a ++ x).getLsbD w = a.getLsbD 0 := by
  rw [BitVec.getLsbD_append, if_neg (lt_irrefl w), Nat.sub_self]

theorem toNat_one_append {w : Nat} (x : BitVec w) : (1#1 ++ x).toNat = 2 ^ w + x.toNat := by
  rw [BitVec.toNat_append, ← Nat.shiftLeft_add_eq_or_of_lt x.isLt, Nat.shiftLeft_eq]; simp

theorem Handler.toNat_bits_setState (w : Nat) : (Handler.setState.bits w).toNat = 2 ^ w := by
  rw [Handler.bits, toNat_one_append]; simp

theorem Handler.toNat_bits_ext {w : Nat} {r : Route} (hr : r < 2 ^ w) : ((Handler.ext r).bits w).toNat = r := by
  rw [Handler.bits, BitVec.toNat_append]; simp [Nat.mod_eq_of_lt hr]

namespace DtabEntry

theorem toNat_bits_bound (w : Nat) (h : Handler) : ((bound h).bits w).toNat = 2 ^ (1 + w) + (h.bits w).toNat :=
  toNat_one_append _

/-- With the bound bit clear the other bits are not looked at (R33). -/
theorem ofBits_of_not_bound {w : Nat} {b : BitVec (1 + (1 + w))} (h : b.getLsbD (1 + w) = false) :
    ofBits w b = .unbound := by
  rw [ofBits, h]; rfl

/-- The bits of a bound entry are read as those of its handler: the internal bit, then the route. -/
theorem ofBits_bits_bound (w : Nat) (h : Handler) :
    ofBits w ((bound h).bits w) =
      if (h.bits w).getLsbD w then .bound .setState else .bound (.ext ((h.bits w).extractLsb' 0 w).toNat) := by
  have hbound : ((bound h).bits w).getLsbD (1 + w) = true := getLsbD_bit_append 1#1 (h.bits w)
  have hinternal : ((bound h).bits w).getLsbD w = (h.bits w).getLsbD w := by
    rw [bits, BitVec.getLsbD_append, if_pos (by omega : w < 1 + w)]
  have hroute : ((bound h).bits w).extractLsb' 0 w = (h.bits w).extractLsb' 0 w :=
    BitVec.extractLsb'_append_eq_of_add_le (by omega)
  rw [ofBits, if_pos hbound, hinternal, hroute]

/-- An entry whose route fits is read back from its bits. -/
theorem ofBits_bits {w : Nat} {e : DtabEntry} (hfit : ∀ r, e = .bound (.ext r) → r < 2 ^ w) :
    ofBits w (e.bits w) = e := by
  cases e with
  | unbound => exact ofBits_of_not_bound BitVec.getLsbD_zero
  | bound h =>
    rw [ofBits_bits_bound]
    cases h with
    | setState => rw [Handler.bits, getLsbD_bit_append]; rfl
    | ext r =>
      rw [Handler.bits, getLsbD_bit_append, BitVec.extractLsb'_append_eq_right, BitVec.toNat_ofNat,
        Nat.mod_eq_of_lt (hfit r rfl)]
      rfl

end DtabEntry

/-- A command of the map is in the closed set, whatever the configuration (R95). -/
theorem inCmdSet_of_cmd {cfg : Config} {c : Byte} (h : ∃ x, cfg.cmd x = c) : cfg.inCmdSet c = true := by
  obtain ⟨x, hx⟩ := h
  rw [Config.inCmdSet, Config.commandOf, List.find?_isSome]
  exact ⟨x, Config.mem_all x, decide_eq_true hx⟩

/-- `BIND` of a command of the closed set to an external handler binds it to the route at the port (R160, R161). -/
theorem bind_ext_get {s : State} {c : Byte} (hc : s.cfg.inCmdSet c = true) (r : Route) :
    (bind c (.ext r) s).dtab.get c = .bound (.ext (r % 2 ^ s.cfg.routeW)) := by
  rcases bind_cases c (.ext r) s with ⟨hno | ⟨hx, _⟩, _⟩ | ⟨_, _, e⟩
  · cases hc.symm.trans hno
  · cases hx
  · rw [e, State.setEntry_dtab, Dtab.get_put_self, atPort_ext]

/-- Settles O5: encoding and decoding of an entry for every `ROUTE_W`, and what `BIND` binds. -/
theorem tableEntryBits : Obligations.TableEntryBits := by
  refine ⟨fun w e => DtabEntry.ofBits_bits, ?_, fun r hr => ?_, fun w b => DtabEntry.ofBits_of_not_bound,
    fun s c r hc => bind_ext_get (inCmdSet_of_cmd hc) r⟩
  · rw [DtabEntry.toNat_bits_bound, Handler.toNat_bits_setState]; norm_num
  · rw [DtabEntry.toNat_bits_bound, Handler.toNat_bits_ext hr]; norm_num

end Sys2Proof.Machine

/-! What a step does besides `FEED`, `FLUSH` and `RESET`, said once (00_scope.md R14; 30_encoding.md R110): quiet updates, with at
most one transition among them. -/

namespace Sys2Proof.Machine

/-- The named updates that write neither the parser, nor a register of a transition, nor `TX`, nor what is already queued. -/
inductive QuietUpdate : State → State → Prop where
  | raise (s) (d : Diag) : QuietUpdate s (s.raise d)
  | emitDisp (s) (e : DispEvent) : QuietUpdate s (s.emitDisp e)
  | answerSend (s) (r : SendResult) : QuietUpdate s (s.answerSend r)
  | enqueue (s) (r : FrameRec) : QuietUpdate s (s.enqueue r)
  | setEntry (s) (c : Byte) (e : DtabEntry) : QuietUpdate s (s.setEntry c e)
  | withBattery (s) (v : Byte) : QuietUpdate s (s.withBattery v)
  | withServos (s) (h v : Half) : QuietUpdate s (s.withServos h v)
  | withRunning (s) (b : Bool) : QuietUpdate s (s.withRunning b)

/-- Some quiet updates, one after the other. -/
abbrev Quiet : State → State → Prop := Relation.ReflTransGen QuietUpdate

/-- Quiet updates with at most one transition among them. -/
inductive Handled (s t : State) : Prop where
  | quiet (h : Quiet s t)
  | entered (u : State) (r : RealState) (before : Quiet s u) (after : Quiet (transition r u) t)

namespace Quiet

variable {s t : State}

/-- A property that every quiet update keeps is kept by them all. -/
theorem keeps (P : State → Prop) (hP : ∀ u v, QuietUpdate u v → P u → P v) (h : Quiet s t) (hs : P s) : P t := by
  induction h with
  | refl => exact hs
  | tail _ hu ih => exact hP _ _ hu ih

theorem sendExternal (c : Byte) (p : List Byte) (s : State) : Quiet s (sendExternal c p s) := by
  have sent : Quiet s (send c p s).1 := by
    rcases send_cases c p s with ⟨_, e⟩ | ⟨_, _, e⟩ | ⟨_, _, e⟩
    · exact e ▸ .single (.raise s _)
    · exact e ▸ .refl
    · exact e ▸ .single (.enqueue s _)
  exact sent.tail (.answerSend _ _)

theorem setBatteryLevel (v : Byte) (s : State) : Quiet s (setBatteryLevel v s) := by
  rcases setBatteryLevel_cases v s with ⟨_, e⟩ | ⟨_, e⟩ <;> rw [e]
  · exact .single (.withBattery s v)
  · exact .single (.raise s _)

theorem bind (c : Byte) (h : Handler) (s : State) : Quiet s (bind c h s) := by
  rcases bind_cases c h s with ⟨_, e⟩ | ⟨_, _, e⟩ <;> rw [e]
  · exact .single (.raise s _)
  · exact .single (.setEntry s c _)

theorem performHandlerOp (op : HandlerOp) (s : State) : Quiet s (performHandlerOp op s) := by
  cases op with
  | send c p => exact sendExternal c p s
  | setBatteryLevel v => exact setBatteryLevel v s
  | setServoAngles h v => exact .single (.withServos s h v)

theorem performReply (ops : List HandlerOp) (s : State) : Quiet s (performReply ops s) :=
  performReply_induction (fun op u h => h.trans (performHandlerOp op u)) ops s .refl

theorem performHostOp (op : HostOp) (s : State) : Quiet s (performHostOp op s) := by
  cases op with
  | send c p => exact sendExternal c p s
  | setBatteryLevel v => exact setBatteryLevel v s
  | setServoAngles h v => exact .single (.withServos s h v)
  | setRunning b => exact .single (.withRunning s b)
  | bind c h => exact bind c h s

end Quiet

namespace Handled

variable {s t : State}

/-- A property that every quiet update and a transition keep is kept. -/
theorem keeps (P : State → Prop) (hP : ∀ u v, QuietUpdate u v → P u → P v) (hT : ∀ r u, P u → P (transition r u))
    (h : Handled s t) (hs : P s) : P t := by
  cases h with
  | quiet h => exact h.keeps P hP hs
  | entered u r before after => exact after.keeps P hP (hT r u (before.keeps P hP hs))

theorem transition (r : RealState) (s : State) : Handled s (transition r s) := .entered s r .refl .refl

theorem raise (d : Diag) (s : State) : Handled s (s.raise d) := .quiet (.single (.raise s d))

theorem hSetState (p : List Byte) (s : State) : Handled s (hSetState p s) := by
  rcases hSetState_cases p s with ⟨_, e⟩ | ⟨_, _, _, _, e⟩ | ⟨_, _, r, _, _, e⟩ <;> rw [e]
  · exact raise _ s
  · exact raise _ s
  · exact transition r s

theorem dispatch (c : Byte) (p : List Byte) (s : State) : Handled s (dispatch c p s) := by
  rcases dispatch_cases c p s with ⟨_, e⟩ | ⟨_, e⟩ | ⟨r, _, e⟩ <;> rw [e]
  · exact raise _ s
  · exact hSetState p s
  · exact .quiet (.head (.emitDisp s _) (Quiet.performReply _ _))

theorem timerCheck (s : State) : Handled s (timerCheck s) := by
  rcases timerCheck_cases s with ⟨_, _, _, e⟩ | ⟨_, e⟩ <;> rw [e]
  · exact transition .listen s
  · exact .quiet .refl

theorem initOp (s : State) : Handled s (initOp s) :=
  .entered _ .sleep (.bind _ _ s) (.single (.withRunning _ true))

end Handled

/-- What an operation does first: nothing, sample the time, or sample the ports and feed a byte. -/
inductive Ingested (s : State) : State → Prop where
  | nothing : Ingested s s
  | sampled (now : Time) : Ingested s (s.sampleNow now)
  | fed (x : RxSample) : Ingested s (feed x.byte ((s.sampleNow x.now).withReply x.reply)).1

/-- Every operation but `RESET` is `FLUSH`, or takes its input and then handles it. -/
theorem StepKind.flush_or_handled {s t : State} (h : StepKind s t) :
    t = Machine.flush s ∨ ∃ u, Ingested s u ∧ Handled u t := by
  cases h with
  | idle => exact .inr ⟨_, .nothing, .quiet .refl⟩
  | init now => exact .inr ⟨_, .sampled now, .initOp _⟩
  | host op => exact .inr ⟨_, .nothing, .quiet (.performHostOp op s)⟩
  | fed x => exact .inr ⟨_, .fed x, .quiet .refl⟩
  | dispatched x f _ => exact .inr ⟨_, .fed x, .dispatch _ _ _⟩
  | mismatch x f _ => exact .inr ⟨_, .fed x, .raise _ _⟩
  | flush => exact .inl rfl
  | timer now => exact .inr ⟨_, .sampled now, .timerCheck _⟩

/-- A step that is not `RESET`. -/
theorem step_flush_or_handled {s t : State} (h : step s = .next t) (hr : NotReset s) :
    ∃ ops, t = flush (s.withPending ops) ∨ ∃ u, Ingested (s.withPending ops) u ∧ Handled u t := by
  obtain ⟨_, ops, ⟨⟨more, hp⟩, _⟩ | hk⟩ := step_cases h
  · exact absurd hp (hr more)
  · exact ⟨ops, hk.flush_or_handled⟩

/-- `FEED` writes the parser and `DIAG` only. -/
theorem feed_eq_with_parser (b : Byte) (s : State) : ∃ u : State, (feed b s).1 = { s with
    inFrame := u.inFrame, pos := u.pos, rxCommand := u.rxCommand, rxLength := u.rxLength, rxbuf := u.rxbuf,
    diag := u.diag } := by
  rcases feed_cases b s with ⟨_, _, e⟩ | ⟨_, _, e⟩ | ⟨_, u, hu, ho⟩ | ⟨_, _, _, _, _, e⟩
  · exact ⟨s, by rw [e]⟩
  · exact ⟨s.atPos 1, by rw [e]; rfl⟩
  · refine ⟨(feed b s).1, ?_⟩
    have stored : u = { s with rxCommand := u.rxCommand, rxLength := u.rxLength, rxbuf := u.rxbuf } := by
      rcases hu with ⟨_, rfl⟩ | ⟨_, rfl⟩ | ⟨_, rfl⟩ | ⟨_, _, _, _, rfl⟩
      · rfl
      · rfl
      · rfl
      · split <;> rfl
    rcases ho with ⟨_, e⟩ | ⟨_, e⟩ <;> rw [e, stored] <;> rfl
  · exact ⟨s.toIdle, by rw [e]; rfl⟩

end Sys2Proof.Machine

/-! `RXBUF` under `FEED` (20_memory.md R61; 40_frame_transport.md R129). -/

namespace Sys2Proof.Machine

/-- Settles O17: of the outcomes of `FEED` only the payload arm stores, at `pos` - 4 when that is an index of the buffer. -/
theorem feedBufferFrame : Obligations.FeedBufferFrame := by
  intro s b a hpos
  rcases feed_cases b s with ⟨hf, _, e⟩ | ⟨hf, _, e⟩ | ⟨hf, u, hu, ho⟩ | ⟨_, _, _, _, hge, e⟩
  · simp [e, hf]
  · simp [e, hf]
  · have hkeep : (feed b s).1.rxbuf = u.rxbuf := by rcases ho with ⟨_, e⟩ | ⟨_, e⟩ <;> rw [e] <;> rfl
    have h1 := hpos hf
    rw [hkeep]
    rcases hu with ⟨hp, rfl⟩ | ⟨hp, rfl⟩ | ⟨hp, rfl⟩ | ⟨h1', h2, h3, hlt, rfl⟩
    · rw [if_neg (by omega)]; rfl
    · rw [if_neg (by omega)]; rfl
    · rw [if_neg (by omega)]; rfl
    · split
      next hi =>
        rw [State.storeRx_rxbuf, Memory.read_write]
        exact if_congr (by simp only [hf, true_and]; omega) rfl rfl
      next => rw [if_neg (by omega)]
  · rw [e, if_neg (by omega)]; rfl

/-! The queue over a step (20_memory.md R63; 10_state.md R30, R46). -/

/-- `TX` is as it was, and what was queued is still first, unaltered. -/
def QueueKept (s t : State) : Prop := t.tx = s.tx ∧ s.oq <+: t.oq

theorem QueueKept.quietUpdate {s u v : State} (hu : QuietUpdate u v) (h : QueueKept s u) : QueueKept s v := by
  obtain ⟨htx, hoq⟩ := h
  cases hu with
  | enqueue r => exact ⟨htx, hoq.trans (List.prefix_append ..)⟩
  | _ => exact ⟨htx, hoq⟩

/-- A transition enqueues its status frame or drops it (R202). -/
theorem QueueKept.transition {s u : State} (r : RealState) (h : QueueKept s u) : QueueKept s (transition r u) := by
  obtain ⟨htx, hoq⟩ := h
  rcases transition_cases r u with ⟨_, e⟩ | ⟨_, _, e⟩ | ⟨_, _, e⟩ <;> rw [e]
  · exact ⟨htx, hoq⟩
  · exact ⟨htx, hoq⟩
  · exact ⟨htx, hoq.trans (List.prefix_append ..)⟩

theorem QueueKept.of_ingested {s u : State} (h : Ingested s u) : QueueKept s u := by
  cases h with
  | nothing => exact ⟨rfl, List.prefix_rfl⟩
  | sampled now => exact ⟨rfl, List.prefix_rfl⟩
  | fed x =>
    obtain ⟨_, e⟩ := feed_eq_with_parser x.byte ((s.sampleNow x.now).withReply x.reply)
    rw [e]; exact ⟨rfl, List.prefix_rfl⟩

/-- Settles O27: `FLUSH` drains the queue whole; whatever else a step does enqueues at the tail only. -/
theorem queueIsFirstInFirstOut : Obligations.QueueIsFirstInFirstOut := by
  intro s t h hr
  obtain ⟨ops, rfl | ⟨u, hin, hout⟩⟩ := step_flush_or_handled h hr
  · exact .inl ⟨rfl, rfl⟩
  · exact .inr (hout.keeps (QueueKept (s.withPending ops)) (fun _ _ => .quietUpdate) (fun r _ => .transition r)
      (.of_ingested hin))

/-! The registers of a transition over a step (20_memory.md R71; 42_behavior_controller.md R200). -/

/-- The registers of a transition are all unchanged, or all written by one transition, at the time that is at the port. -/
def ChangedTogether (s t : State) : Prop :=
  SameTransition s t ∨
    (t.currentState ≠ s.currentState ∧ t.previousState = s.currentState ∧ t.stateEnterTimestamp = t.nowMs ∧
      ∃ r, t.currentState = s.cfg.enc r ∧ t.currentExpressionId = exprOf r ∧ t.expr = s.expr ++ [exprOf r])

namespace ChangedTogether

variable {s t u : State}

theorem transition (r : RealState) (s : State) : ChangedTogether s (transition r s) := by
  rcases transition_cases r s with ⟨_, e⟩ | ⟨hne, _, e⟩ | ⟨hne, _, e⟩ <;> rw [e]
  · exact .inl ⟨rfl, rfl, rfl, rfl, rfl⟩
  · exact .inr ⟨hne.symm, rfl, rfl, r, rfl, rfl, rfl⟩
  · exact .inr ⟨hne.symm, rfl, rfl, r, rfl, rfl, rfl⟩

theorem after_same (hsame : SameTransition s u) (hcfg : u.cfg = s.cfg) (h : ChangedTogether u t) :
    ChangedTogether s t := by
  obtain ⟨hcur, hprev, hstamp, hid, hexpr⟩ := hsame
  simpa only [ChangedTogether, SameTransition, hcur, hprev, hstamp, hid, hexpr, hcfg] using h

theorem before_same (h : ChangedTogether s u) (hsame : SameTransition u t) (hnow : t.nowMs = u.nowMs) :
    ChangedTogether s t := by
  obtain ⟨hcur, hprev, hstamp, hid, hexpr⟩ := hsame
  simpa only [ChangedTogether, SameTransition, hcur, hprev, hstamp, hid, hexpr, hnow] using h

end ChangedTogether

/-- Quiet updates leave the registers of a transition, and what a transition reads to write them. -/
theorem Quiet.sameTransition {s t : State} (h : Quiet s t) : SameTransition s t ∧ t.cfg = s.cfg ∧ t.nowMs = s.nowMs :=
  h.keeps (fun u => SameTransition s u ∧ u.cfg = s.cfg ∧ u.nowMs = s.nowMs)
    (fun _ _ hu h => by cases hu <;> exact h) ⟨⟨rfl, rfl, rfl, rfl, rfl⟩, rfl, rfl⟩

theorem Ingested.sameTransition {s u : State} (h : Ingested s u) : SameTransition s u ∧ u.cfg = s.cfg := by
  cases h with
  | nothing => exact ⟨⟨rfl, rfl, rfl, rfl, rfl⟩, rfl⟩
  | sampled now => exact ⟨⟨rfl, rfl, rfl, rfl, rfl⟩, rfl⟩
  | fed x =>
    obtain ⟨_, e⟩ := feed_eq_with_parser x.byte ((s.sampleNow x.now).withReply x.reply)
    rw [e]; exact ⟨⟨rfl, rfl, rfl, rfl, rfl⟩, rfl⟩

theorem Handled.changedTogether {s t : State} (h : Handled s t) : ChangedTogether s t := by
  cases h with
  | quiet h => exact .inl h.sameTransition.1
  | entered u r before after =>
    obtain ⟨hsame, hcfg, _⟩ := before.sameTransition
    obtain ⟨hsame', _, hnow'⟩ := after.sameTransition
    exact ((ChangedTogether.transition r u).before_same hsame' hnow').after_same hsame hcfg

/-- Settles O47: taking the input changes none of the registers, and at most one transition follows. -/
theorem transitionRegistersChangeTogether : Obligations.TransitionRegistersChangeTogether := by
  intro s t h hr
  obtain ⟨ops, rfl | ⟨u, hin, hout⟩⟩ := step_flush_or_handled h hr
  · exact .inl ⟨rfl, rfl, rfl, rfl, rfl⟩
  · obtain ⟨hsame, hcfg⟩ := hin.sameTransition
    have h : ChangedTogether (s.withPending ops) t := hout.changedTogether.after_same hsame hcfg
    exact h

end Sys2Proof.Machine

/-! Cutting the input (20_memory.md R79; 40_frame_transport.md R126; 43_tick_loop.md R240, R242). -/

namespace Sys2Proof.Machine

@[simp] theorem feed_cfg (b : Byte) (s : State) : (feed b s).1.cfg = s.cfg := by
  obtain ⟨_, e⟩ := feed_eq_with_parser b s
  rw [e]

@[simp] theorem feed_pending (b : Byte) (s : State) : (feed b s).1.pending = s.pending := by
  obtain ⟨_, e⟩ := feed_eq_with_parser b s
  rw [e]

theorem feedAll_cfg (bs : List Byte) (s : State) : (feedAll bs s).1.cfg = s.cfg := by
  induction bs generalizing s with
  | nil => rfl
  | cons b bs ih => exact (ih _).trans (feed_cfg b s)

namespace SameParser

variable {s t u : State}

theorem refl (s : State) : SameParser s s := ⟨rfl, rfl, rfl, rfl, fun _ => rfl⟩

theorem trans (h : SameParser s t) (h' : SameParser t u) : SameParser s u := by
  obtain ⟨hf, hp, hc, hl, hb⟩ := h
  obtain ⟨hf', hp', hc', hl', hb'⟩ := h'
  exact ⟨hf'.trans hf, hp'.trans hp, hc'.trans hc, hl'.trans hl, fun a => (hb' a).trans (hb a)⟩

theorem toIdle (h : SameParser s t) : SameParser s.toIdle t.toIdle := ⟨rfl, rfl, h.2.2⟩

theorem atPos (h : SameParser s t) (k : Nat) : SameParser (s.atPos k) (t.atPos k) := ⟨rfl, rfl, h.2.2⟩

theorem withCommand (h : SameParser s t) (b : Byte) : SameParser (s.withCommand b) (t.withCommand b) := by
  obtain ⟨hf, hp, _, hl, hb⟩ := h
  exact ⟨hf, hp, rfl, hl, hb⟩

theorem withLength (h : SameParser s t) (n : Half) : SameParser (s.withLength n) (t.withLength n) := by
  obtain ⟨hf, hp, hc, _, hb⟩ := h
  exact ⟨hf, hp, hc, rfl, hb⟩

theorem storeRx (h : SameParser s t) (i : Nat) (b : Byte) : SameParser (s.storeRx i b) (t.storeRx i b) := by
  obtain ⟨hf, hp, hc, hl, hb⟩ := h
  refine ⟨hf, hp, hc, hl, fun a => ?_⟩
  rw [State.storeRx_rxbuf, State.storeRx_rxbuf, Memory.read_write, Memory.read_write, hb a]

theorem feedAdvance (h : SameParser s t) (k : Nat) : SameParser (feedAdvance k s) (feedAdvance k t) := by
  unfold Machine.feedAdvance
  split
  · exact ⟨rfl, rfl, h.2.2⟩
  · exact h.atPos _

theorem feedPayload (h : SameParser s t) (k : Nat) (b : Byte) : SameParser (feedPayload k b s) (feedPayload k b t) := by
  unfold Machine.feedPayload
  split
  · exact h.storeRx _ b
  · exact h

theorem completedFrame (h : SameParser s t) (hcfg : t.cfg = s.cfg) (b : Byte) :
    completedFrame b t = completedFrame b s := by
  obtain ⟨_, _, hc, hl, hb⟩ := h
  have hread : t.rxbuf.readFirst s.rxLength.toNat = s.rxbuf.readFirst s.rxLength.toNat :=
    List.map_congr_left fun a _ => hb a
  simp only [Machine.completedFrame, hc, hl, hcfg, hread]

/-- `FEED` reads the configuration, the parser and the byte only. -/
theorem feed (h : SameParser s t) (hcfg : t.cfg = s.cfg) (b : Byte) :
    (feed b t).2 = (feed b s).2 ∧ SameParser (feed b s).1 (feed b t).1 := by
  obtain ⟨hf, hp, _, hl, _⟩ := id h
  simp only [Machine.feed, feedInFrame, hf, hp, hl]
  split_ifs
  · exact ⟨rfl, (h.withCommand b).feedAdvance _⟩
  · exact ⟨rfl, (h.withLength _).feedAdvance _⟩
  · exact ⟨rfl, (h.withLength _).feedAdvance _⟩
  · exact ⟨rfl, (h.feedPayload _ b).feedAdvance _⟩
  · exact ⟨congrArg some (h.completedFrame hcfg b), h.toIdle⟩
  · exact ⟨rfl, h.atPos 1⟩
  · exact ⟨rfl, h⟩

theorem feedAll (h : SameParser s t) (hcfg : t.cfg = s.cfg) (bs : List Byte) :
    SameParser (feedAll bs s).1 (feedAll bs t).1 := by
  induction bs generalizing s t with
  | nil => exact h
  | cons b bs ih =>
    have hcfg' : (Machine.feed b t).1.cfg = (Machine.feed b s).1.cfg := by rw [feed_cfg, feed_cfg, hcfg]
    exact ih (h.feed hcfg b).2 hcfg'

end SameParser

/-- Handling leaves the configuration, the schedule and the parser. -/
theorem Handled.sameParser {s t : State} (h : Handled s t) : SameParser s t ∧ t.cfg = s.cfg ∧ t.pending = s.pending := by
  refine h.keeps (fun u => SameParser s u ∧ u.cfg = s.cfg ∧ u.pending = s.pending) (fun _ _ hu h => ?_) (fun r u h => ?_)
    ⟨.refl s, rfl, rfl⟩
  · cases hu <;> exact h
  · rcases transition_cases r u with ⟨_, e⟩ | ⟨_, _, e⟩ | ⟨_, _, e⟩ <;> rw [e] <;> exact h

/-- The input byte that the first step of an operation feeds, if it feeds one. -/
def Op.firstBytes : Op → List Byte
  | .rxByte x | .tick (.rx x :: _) _ _ => [x.byte]
  | _ => []

/-- What the first step of an operation leaves of it on the schedule (R240, R245). -/
def Op.rest : Op → List Op
  | .tick (_ :: items) beforeTimer now => [.tick items beforeTimer now]
  | .tick [] beforeTimer now => beforeTimer.map .host ++ [.timerCheck now]
  | _ => []

theorem Op.bytes_eq (op : Op) : op.bytes = op.firstBytes ++ op.rest.flatMap Op.bytes := by
  cases op with
  | tick items beforeTimer now =>
    rcases items with _ | ⟨_ | _, items⟩
    · simp [Op.bytes, Op.firstBytes, Op.rest, List.flatMap_map]
    · simp [Op.bytes, Op.firstBytes, Op.rest]
    · simp [Op.bytes, Op.firstBytes, Op.rest]
  | _ => rfl

theorem Op.steps_eq (op : Op) : op.steps = (op.rest.map Op.steps).sum + 1 := by
  cases op with
  | tick items beforeTimer now =>
    cases items with
    | nil => simp [Op.steps, Op.rest, Function.comp_def]
    | cons item items => simp [Op.steps, Op.rest]; omega
  | _ => rfl

theorem Op.reset_notMem_rest (op : Op) : .reset ∉ op.rest := by
  cases op with
  | tick items beforeTimer now => cases items <;> simp [Op.rest]
  | _ => exact List.not_mem_nil

/-- The outcome is a state in which the schedule is `ops` and the parser is as after `bs` fed to `s`. -/
def Takes (o : Host.Outcome State Fault Refusal) (s : State) (bs : List Byte) (ops : List Op) : Prop :=
  ∃ t, o = .next t ∧ t.pending = ops ∧ t.cfg = s.cfg ∧ SameParser (feedAll bs s).1 t

theorem Takes.of_sameParser {o : Host.Outcome State Fault Refusal} {s u : State} {bs : List Byte} {ops : List Op}
    (h : Takes o u bs ops) (hsame : SameParser s u) (hcfg : u.cfg = s.cfg) : Takes o s bs ops := by
  obtain ⟨t, ho, hops, hcfg', hparser⟩ := h
  exact ⟨t, ho, hops, hcfg'.trans hcfg, (hsame.feedAll hcfg bs).trans hparser⟩

theorem Handled.takes {s t : State} (h : Handled s t) : Takes (.next t) s [] s.pending := by
  obtain ⟨hparser, hcfg, hpending⟩ := h.sameParser
  exact ⟨t, rfl, hpending, hcfg, hparser⟩

theorem Handled.takes_after_feed {s t : State} {b : Byte} (h : Handled (feed b s).1 t) :
    Takes (.next t) s [b] s.pending := by
  obtain ⟨hparser, hcfg, hpending⟩ := h.sameParser
  exact ⟨t, rfl, by rw [hpending, feed_pending], by rw [hcfg, feed_cfg], hparser⟩

/-- `RX_BYTE` feeds its byte; what is done with the frame leaves the parser (R242). -/
theorem rxByte_takes (x : RxSample) (s : State) : Takes (rxByte x s) s [x.byte] s.pending := by
  obtain ⟨u, hu, hc⟩ := rxByte_cases x s
  have sampled : Takes (rxByte x s) u [x.byte] u.pending := by
    rcases hc with ⟨_, e⟩ | ⟨f, _, _, e⟩ | ⟨f, _, _, e⟩ <;> rw [e]
    · exact Handled.takes_after_feed (.quiet .refl)
    · exact Handled.takes_after_feed (.dispatch _ _ _)
    · exact Handled.takes_after_feed (.raise _ _)
  subst hu
  exact sampled.of_sameParser (.refl s) rfl

/-- One atomic operation: it takes its own byte, if it has one, and leaves the rest of a `TICK` on the schedule. -/
theorem applyOp_takes {op : Op} (hop : op ≠ .reset) (s : State) :
    Takes (applyOp op s) s op.firstBytes (op.rest ++ s.pending) := by
  cases op with
  | reset => exact absurd rfl hop
  | init now => exact (Handled.initOp (s.sampleNow now)).takes.of_sameParser (.refl s) rfl
  | host op => exact (Handled.quiet (.performHostOp op s)).takes
  | rxByte x => exact rxByte_takes x s
  | flush => exact ⟨_, rfl, rfl, rfl, .refl s⟩
  | timerCheck now => exact (Handled.timerCheck (s.sampleNow now)).takes.of_sameParser (.refl s) rfl
  | tick items beforeTimer now =>
    rcases items with _ | ⟨x | op, items⟩
    · exact ⟨_, rfl, by simp [Op.rest, flush], rfl, .refl s⟩
    · exact (rxByte_takes x _).of_sameParser (.refl s) rfl
    · exact (Handled.quiet (.performHostOp op _)).takes.of_sameParser (.refl s) rfl

theorem step_takes {s : State} {op : Op} {ops : List Op} (hw : s.cfg.wf) (hp : s.pending = op :: ops)
    (hop : op ≠ .reset) : Takes (step s) s op.firstBytes (op.rest ++ ops) := by
  rw [step_op hw hp]
  exact (applyOp_takes hop (s.withPending ops)).of_sameParser (.refl s) rfl

/-- A schedule without `RESET`, run to its end: by induction on the number of steps, each of which takes the bytes that it
removes from the schedule. -/
theorem runSteps_takes (n : Nat) {s : State} (hw : s.cfg.wf) (hr : .reset ∉ s.pending)
    (hn : (s.pending.map Op.steps).sum = n) : Takes (runSteps n s) s (s.pending.flatMap Op.bytes) [] := by
  induction n generalizing s with
  | zero =>
    cases hp : s.pending with
    | nil => exact ⟨s, rfl, hp, rfl, .refl s⟩
    | cons op ops =>
      rw [hp, List.map_cons, List.sum_cons, op.steps_eq] at hn
      omega
  | succ n ih =>
    cases hp : s.pending with
    | nil => simp [hp] at hn
    | cons op ops =>
      rw [hp] at hr hn
      have hop : op ≠ .reset := fun e => hr (e ▸ List.mem_cons_self)
      have hops : .reset ∉ ops := fun h => hr (List.mem_cons_of_mem op h)
      obtain ⟨t, hstep, hpending, hcfg, hparser⟩ := step_takes hw hp hop
      have hrest : .reset ∉ t.pending := by
        simpa [hpending] using ⟨op.reset_notMem_rest, hops⟩
      have hsteps : (t.pending.map Op.steps).sum = n := by
        rw [List.map_cons, List.sum_cons, op.steps_eq] at hn
        rw [hpending, List.map_append, List.sum_append]
        omega
      have hbytes : (op :: ops).flatMap Op.bytes = op.firstBytes ++ t.pending.flatMap Op.bytes := by
        rw [hpending, List.flatMap_cons, op.bytes_eq, List.flatMap_append, List.append_assoc]
      obtain ⟨v, hrun, hend, hcfg', hparser'⟩ := ih (hcfg ▸ hw) hrest hsteps
      refine ⟨v, (runSteps_next hstep).trans hrun, hend, hcfg'.trans hcfg, ?_⟩
      rw [hbytes, feedAll_append]
      exact (hparser.feedAll (by rw [feedAll_cfg, hcfg]) _).trans hparser'

/-- Settles O21: `FEED` reads only what the two states share; a run takes the bytes of its schedule in order. -/
theorem chunkingInvariance : Obligations.ChunkingInvariance := by
  refine ⟨fun s t b hcfg h => h.feed hcfg b, fun s hw hr => ?_⟩
  obtain ⟨t, hrun, hend, _, hparser⟩ := runSteps_takes _ hw (fun hmem => hr _ hmem rfl) rfl
  exact ⟨t, hrun, hend, hparser⟩

end Sys2Proof.Machine

/-! The command map and the state encoding, outside their images (30_encoding.md R95, R104, R107 (d)). -/

namespace Sys2Proof.Config

theorem commandOf_eq_none_iff {cfg : Config} {c : Byte} : cfg.commandOf c = none ↔ ∀ x, cfg.cmd x ≠ c := by
  simp [commandOf, List.find?_eq_none, mem_all]

theorem realOf_eq_none_iff {cfg : Config} {v : Byte} : cfg.realOf v = none ↔ ∀ r, cfg.enc r ≠ v := by
  simp [realOf, List.find?_eq_none, mem_realAll]

/-- The default encodings fill the range 1 to 5 (decision D7). -/
theorem default_realOf_eq_none_iff (v : Byte) : default.realOf v = none ↔ v.toNat < 1 ∨ 5 < v.toNat := by
  rw [realOf_eq_none_iff]
  constructor
  · intro h
    have hsleep : 1#8 ≠ v := h .sleep
    have hwake : 2#8 ≠ v := h .wake
    have hlisten : 3#8 ≠ v := h .listen
    have hthink : 4#8 ≠ v := h .think
    have htalk : 5#8 ≠ v := h .talk
    bv_omega
  · rintro h r rfl
    cases r <;> revert h <;> decide

/-- Settles O7: what the bytes outside 1 to 5 miss is every encoding, and each encoding is read back. -/
theorem defaultStateEncoding : Obligations.DefaultStateEncoding :=
  ⟨default_realOf_eq_none_iff, realOf_enc default_wf .sleep, realOf_enc default_wf .wake,
    realOf_enc default_wf .listen, realOf_enc default_wf .think, realOf_enc default_wf .talk⟩

end Sys2Proof.Config

/-! The decoder of one frame, a lemma or two for each of its parts (30_encoding.md R90, R93 to R96, R107). -/

namespace Sys2Proof.Machine

/-- `LENGTH` is determined by the number of payload bytes (R93). -/
theorem lengthOf_of_length_eq {p : List Byte} {n : Half} (h : p.length = n.toNat) : lengthOf p = n := by
  rw [lengthOf, h, BitVec.ofNat_toNat, BitVec.setWidth_eq]

/-! The command. -/

theorem instrOf_cmd {cfg : Config} (hw : cfg.wf) (i : Instr) : instrOf cfg (cfg.cmd i.command) i.payload = some i := by
  rw [instrOf, Config.commandOf_cmd hw, Option.map_some, ofCommand_eta]

theorem instrOf_eq_none {cfg : Config} {c : Byte} (hc : ∀ x, cfg.cmd x ≠ c) (p : List Byte) : instrOf cfg c p = none := by
  rw [instrOf, Config.commandOf_eq_none_iff.mpr hc, Option.map_none]

/-- An instruction carries the command byte and the payload it is read from. -/
theorem cmd_payload_of_instrOf {cfg : Config} {c : Byte} {p : List Byte} {i : Instr} (h : instrOf cfg c p = some i) :
    cfg.cmd i.command = c ∧ i.payload = p := by
  obtain ⟨x, hx, rfl⟩ := Option.map_eq_some_iff.mp h
  rw [ofCommand_command, ofCommand_payload]
  exact ⟨Config.cmd_of_commandOf hx, rfl⟩

/-! The checksum. -/

theorem decodeChecked_of_ne {cfg : Config} {c k : Byte} {n : Half} {p : List Byte} (hk : k ≠ crc8 cfg (covered c n p))
    (rest : List Byte) :
    decodeChecked cfg c n p k rest = .bad (.checksumMismatch k (crc8 cfg (covered c n p))) :=
  if_neg hk

theorem decodeChecked_of_reserved {cfg : Config} {c : Byte} {p : List Byte} (h : instrOf cfg c p = none) (n : Half)
    (rest : List Byte) :
    decodeChecked cfg c n p (crc8 cfg (covered c n p)) rest = .bad (.reservedCommand c) := by
  simp [decodeChecked, h]

/-- With the extent of the frame known, it decodes when both the checksum and the command are right (R94, R95). -/
theorem decodeChecked_eq_ok_iff {cfg : Config} {c k : Byte} {n : Half} {p tail rest : List Byte} {i : Instr} :
    decodeChecked cfg c n p k tail = .ok i rest ↔
      k = crc8 cfg (covered c n p) ∧ instrOf cfg c p = some i ∧ tail = rest := by
  by_cases hk : k = crc8 cfg (covered c n p)
  · cases hi : instrOf cfg c p <;> simp [decodeChecked, hk, hi]
  · simp [decodeChecked_of_ne hk, hk]

/-! The payload, whose extent `LENGTH` gives. -/

theorem decodeBody_of_oversize {n : Half} (hn : 1024 < n.toNat) (cfg : Config) (c : Byte) (body : List Byte) :
    decodeBody cfg c n body = .bad (.oversize n) :=
  if_pos hn

theorem decodeBody_append {p : List Byte} {n : Half} (hp : p.length = n.toNat) (hn : n.toNat ≤ 1024) (cfg : Config)
    (c k : Byte) (rest : List Byte) : decodeBody cfg c n (p ++ k :: rest) = decodeChecked cfg c n p k rest := by
  have hsize : ¬ Config.maxPayload < n.toNat := Nat.not_lt.mpr hn
  rw [decodeBody, if_neg hsize, List.drop_left' hp, List.take_left' hp]

/-- A body that decodes is a payload of `LENGTH` bytes, a checksum byte and more, and `LENGTH` is legal. -/
theorem exists_payload_of_decodeBody_eq_ok {cfg : Config} {c : Byte} {n : Half} {body rest : List Byte} {i : Instr}
    (h : decodeBody cfg c n body = .ok i rest) :
    ∃ p k tail, body = p ++ k :: tail ∧ p.length = n.toNat ∧ n.toNat ≤ 1024 ∧
      decodeChecked cfg c n p k tail = .ok i rest := by
  by_cases hn : Config.maxPayload < n.toNat
  · cases (decodeBody_of_oversize hn cfg c body).symm.trans h
  · rw [decodeBody, if_neg hn] at h
    split at h
    next => cases h
    next k tail hdrop =>
      have hlen : n.toNat < body.length :=
        Nat.not_le.mp fun hle => List.cons_ne_nil k tail (hdrop.symm.trans (List.drop_eq_nil_of_le hle))
      exact ⟨body.take n.toNat, k, tail, by rw [← hdrop, List.take_append_drop],
        List.length_take_of_le hlen.le, Nat.not_lt.mp hn, h⟩

/-! The header. -/

theorem decode_header (cfg : Config) (c lo hi : Byte) (body : List Byte) :
    decode cfg (Config.head :: c :: lo :: hi :: body) = decodeBody cfg c (le16 lo hi) body := rfl

/-- Bytes that decode begin with a whole header. -/
theorem exists_header_of_decode_eq_ok {cfg : Config} {bs rest : List Byte} {i : Instr}
    (h : decode cfg bs = .ok i rest) :
    ∃ c lo hi body, bs = Config.head :: c :: lo :: hi :: body ∧ decodeBody cfg c (le16 lo hi) body = .ok i rest := by
  unfold decode at h
  split at h
  next => cases h
  next b bs =>
    split at h
    next hb =>
      split at h
      next c lo hi body => exact ⟨c, lo, hi, body, by rw [hb], h⟩
      next => cases h
    next => cases h

/-! The whole frame. -/

/-- Of a frame within the format's range, what is left to decide is the checksum and the command. -/
theorem decode_covered {p : List Byte} (hp : p.length ≤ 1024) (cfg : Config) (c k : Byte) (rest : List Byte) :
    decode cfg (covered c (lengthOf p) p ++ k :: rest) = decodeChecked cfg c (lengthOf p) p k rest := by
  have hn : (lengthOf p).toNat = p.length := lengthOf_toNat hp
  calc decode cfg (covered c (lengthOf p) p ++ k :: rest)
    _ = decodeBody cfg c (le16 (lo8 (lengthOf p)) (hi8 (lengthOf p))) (p ++ k :: rest) := decode_header ..
    _ = decodeBody cfg c (lengthOf p) (p ++ k :: rest) := by rw [le16_lo_hi]
    _ = decodeChecked cfg c (lengthOf p) p k rest := decodeBody_append hn.symm (hn ▸ hp) ..

theorem decode_frameBytes {p : List Byte} (hp : p.length ≤ 1024) (cfg : Config) (c : Byte) (rest : List Byte) :
    decode cfg (frameBytes cfg c p ++ rest) =
      decodeChecked cfg c (lengthOf p) p (crc8 cfg (covered c (lengthOf p) p)) rest := by
  rw [frameBytes, List.append_assoc, List.singleton_append, decode_covered hp]

theorem decode_encode {cfg : Config} (hw : cfg.wf) {i : Instr} (hi : i.payload.length ≤ 1024) (rest : List Byte) :
    decode cfg (encode cfg i ++ rest) = .ok i rest := by
  rw [encode, decode_frameBytes hi, decodeChecked_eq_ok_iff]
  exact ⟨rfl, instrOf_cmd hw i, rfl⟩

/-- The parts that the decoder found are put together again as the encoder does. -/
theorem encode_of_decode {cfg : Config} {bs rest : List Byte} {i : Instr} (h : decode cfg bs = .ok i rest) :
    bs = encode cfg i ++ rest ∧ i.payload.length ≤ 1024 := by
  obtain ⟨c, lo, hi, body, rfl, hbody⟩ := exists_header_of_decode_eq_ok h
  obtain ⟨p, k, tail, rfl, hp, hn, hchecked⟩ := exists_payload_of_decodeBody_eq_ok hbody
  obtain ⟨rfl, hinstr, rfl⟩ := decodeChecked_eq_ok_iff.mp hchecked
  obtain ⟨rfl, rfl⟩ := cmd_payload_of_instrOf hinstr
  refine ⟨?_, hp ▸ hn⟩
  simp [encode, frameBytes, covered, lengthOf_of_length_eq hp]

/-- Settles O2: the length field is the payload's, the checksum is the right one, and a legal command map has an inverse. -/
theorem decodeEncodeRoundTrip : Obligations.DecodeEncodeRoundTrip :=
  fun _ _ rest hw hi => decode_encode hw (of_decide_eq_true hi) rest

/-- Settles O3: header, payload, checksum and command of a decoded frame are each the encoder's. -/
theorem decodedBytesAreItsFrame : Obligations.DecodedBytesAreItsFrame := by
  intro cfg bs rest i h
  obtain ⟨hbs, hlen⟩ := encode_of_decode h
  exact ⟨hbs, decide_eq_true hlen⟩

/-- Settles O4: each rejection by the part of the decoder that makes it. -/
theorem reservedFramesAreRejectedByName : Obligations.ReservedFramesAreRejectedByName := by
  refine fun cfg c lo hi k p body rest => ⟨fun hn => ?_, fun hp hk => ?_, fun hp hc => ?_⟩
  · exact (decode_header cfg c lo hi body).trans (decodeBody_of_oversize hn ..)
  · rw [decode_covered hp, decodeChecked_of_ne hk]
  · rw [decode_frameBytes hp, decodeChecked_of_reserved (instrOf_eq_none hc p)]

/-- Settles O1: the decoder run on each of the four frames. -/
theorem specFramesDecode : Obligations.SpecFramesDecode :=
  ⟨by decide, by decide, by decide, by decide⟩

/-- Settles O6: the three frames computed. -/
theorem payloadLayoutsLittleEndian : Obligations.PayloadLayoutsLittleEndian :=
  ⟨by decide, by decide, by decide⟩

end Sys2Proof.Machine

/-! The checksum unit (40_frame_transport.md R120 to R123). -/

namespace Sys2Proof.Machine

theorem crc8From_eq_foldl (acc : Byte) (bs : List Byte) : crc8From acc bs = bs.foldl crc8Byte acc := by
  induction bs generalizing acc with
  | nil => rfl
  | cons b bs ih => rw [crc8From_cons, ih, List.foldl_cons]

theorem crcShifts_eq_iterate (n : Nat) (a : Byte) : crcShifts n a = crcShift^[n] a := by
  induction n generalizing a with
  | zero => rfl
  | succ n ih => rw [crcShifts_succ, ih, Function.iterate_succ_apply]

theorem crc8_append_singleton (cfg : Config) (bs : List Byte) (b : Byte) :
    crc8 cfg (bs ++ [b]) = crc8Byte (crc8 cfg bs) b := by
  rw [crc8_append, crc8From_cons, crc8From_nil]

theorem crc8Byte_self (a : Byte) : crc8Byte a a = 0 := by
  rw [crc8Byte, BitVec.xor_self]
  exact crcShifts_of_zero 8

theorem crc8Byte_right_inj {acc a b : Byte} (h : crc8Byte acc a = crc8Byte acc b) : a = b :=
  (BitVec.xor_right_inj acc).mp (crcShifts_inj 8 h)

theorem crc8Byte_xor (a b x y : Byte) : crc8Byte (a ^^^ b) (x ^^^ y) = crc8Byte a x ^^^ crc8Byte b y := by
  have swap : a ^^^ b ^^^ (x ^^^ y) = a ^^^ x ^^^ (b ^^^ y) := by ac_rfl
  rw [crc8Byte, swap, crcShifts_xor]
  rfl

/-- The accumulator is linear in its start value and the bytes together (R122). -/
theorem crc8From_xor {xs ys : List Byte} (hlen : xs.length = ys.length) (a b : Byte) :
    crc8From (a ^^^ b) (List.zipWith (· ^^^ ·) xs ys) = crc8From a xs ^^^ crc8From b ys := by
  induction xs generalizing ys a b with
  | nil =>
    obtain rfl : ys = [] := List.length_eq_zero_iff.mp hlen.symm
    rfl
  | cons x xs ih =>
    obtain ⟨y, ys, rfl⟩ := List.exists_cons_of_length_eq_add_one hlen.symm
    rw [List.zipWith_cons_cons, crc8From_cons, crc8Byte_xor, ih (Nat.succ.inj hlen), crc8From_cons, crc8From_cons]

/-- With one byte changed in one place the accumulators part there and never meet again. -/
theorem crc8_ne_of_byte_ne (cfg : Config) (pre post : List Byte) {b d : Byte} (hne : b ≠ d) :
    crc8 cfg (pre ++ b :: post) ≠ crc8 cfg (pre ++ d :: post) := by
  intro h
  rw [crc8_append, crc8_append, crc8From_cons, crc8From_cons] at h
  exact hne (crc8Byte_right_inj (crc8From_inj post h))

/-- Flipping a bit of a byte gives another byte. -/
theorem ne_xor_bit (b : Byte) {k : Nat} (hk : k < 8) : b ≠ b ^^^ (1#8 <<< k) := by
  have hbit : ∀ k < 8, 1#8 <<< k ≠ 0#8 := by decide
  intro h
  refine hbit k hk ((BitVec.xor_right_inj b).mp ?_)
  rw [← h, BitVec.xor_zero]

theorem OneBitApart.crc8_ne {xs ys : List Byte} (h : OneBitApart xs ys) (cfg : Config) : crc8 cfg xs ≠ crc8 cfg ys := by
  obtain ⟨pre, b, post, k, hk, rfl, rfl⟩ := h
  exact crc8_ne_of_byte_ne cfg pre post (ne_xor_bit b hk)

/-- A bit of the command or of the payload is a bit of what the checksum covers (R121). -/
theorem OneBitApart.covered {c d : Byte} {p q : List Byte} (h : OneBitApart (c :: p) (d :: q)) (n : Half) :
    OneBitApart (covered c n p) (covered d n q) := by
  obtain ⟨pre, b, post, k, hk, hxs, hys⟩ := h
  cases pre with
  | nil =>
    obtain ⟨rfl, rfl⟩ := List.cons.inj hxs
    obtain ⟨rfl, rfl⟩ := List.cons.inj hys
    exact ⟨[Config.head], _, lo8 n :: hi8 n :: _, k, hk, rfl, rfl⟩
  | cons x pre =>
    obtain ⟨rfl, rfl⟩ := List.cons.inj hxs
    obtain ⟨rfl, rfl⟩ := List.cons.inj hys
    exact ⟨Config.head :: _ :: lo8 n :: hi8 n :: pre, b, post, k, hk, rfl, rfl⟩

/-- Settles O8: the model's recursions are the fold and the iteration of R120; its examples computed. -/
theorem crc8IsTheStatedAlgorithm : Obligations.Crc8IsTheStatedAlgorithm :=
  ⟨fun cfg bs => crc8From_eq_foldl cfg.crcInit bs, fun acc b => crcShifts_eq_iterate 8 (acc ^^^ b),
    by decide, by decide, by decide, by decide, by decide⟩

/-- Settles O9: the accumulator's laws, started at `CRC_INIT`. -/
theorem checksumLaws : Obligations.ChecksumLaws := by
  refine ⟨crc8_append_singleton, fun cfg bs => ?_, fun cfg xs ys hinit hlen => ?_⟩
  · rw [crc8_append_singleton, crc8Byte_self]
  · have hzero : cfg.crcInit = cfg.crcInit ^^^ cfg.crcInit := by rw [hinit]; rfl
    calc crc8 cfg (List.zipWith (· ^^^ ·) xs ys)
      _ = crc8From (cfg.crcInit ^^^ cfg.crcInit) (List.zipWith (· ^^^ ·) xs ys) := by rw [← hzero]; rfl
      _ = crc8 cfg xs ^^^ crc8 cfg ys := crc8From_xor hlen _ _

end Sys2Proof.Machine

/-! The arms of `FEED`, an equation for each (40_frame_transport.md R126 to R131). -/

namespace Sys2Proof.Machine

section

variable {s : State}

theorem State.ofNat_pos_succ (s : State) : BitVec.ofNat 11 (s.pos.toNat + 1) = s.pos + 1 := by
  simp [BitVec.ofNat_add]

theorem feed_idle_of_ne_head {b : Byte} (hf : s.inFrame = false) (hb : b ≠ Config.head) : feed b s = (s, none) := by
  simp [feed, hf, hb]

theorem feed_idle_head (hf : s.inFrame = false) : feed Config.head s = (s.atPos 1, none) := by
  simp [feed, hf]

theorem feed_command (hf : s.inFrame = true) (hp : s.pos.toNat = 1) (b : Byte) :
    feed b s = ((s.withCommand b).atPos 2, none) := by
  simp [feed, hf, feedInFrame, hp, feedAdvance, Config.maxFrame]

theorem feed_lengthLow (hf : s.inFrame = true) (hp : s.pos.toNat = 2) (b : Byte) :
    feed b s = ((s.withLength (le16 b (hi8 s.rxLength))).atPos 3, none) := by
  simp [feed, hf, feedInFrame, hp, feedAdvance, Config.maxFrame]

theorem feed_lengthHigh (hf : s.inFrame = true) (hp : s.pos.toNat = 3) (b : Byte) :
    feed b s = ((s.withLength (le16 (lo8 s.rxLength) b)).atPos 4, none) := by
  simp [feed, hf, feedInFrame, hp, feedAdvance, Config.maxFrame]

/-- A payload byte inside the buffer (R129). -/
theorem feed_payload (hf : s.inFrame = true) (hge : 4 ≤ s.pos.toNat) (hlt : s.pos.toNat < 4 + s.rxLength.toNat)
    (hbuf : s.pos.toNat ≤ 1027) (b : Byte) :
    feed b s = ((s.storeRx (s.pos.toNat - 4) b).atPos (s.pos.toNat + 1), none) := by
  obtain ⟨h1, h2, h3⟩ : s.pos.toNat ≠ 1 ∧ s.pos.toNat ≠ 2 ∧ s.pos.toNat ≠ 3 := by omega
  have hstore : feedPayload s.pos.toNat b s = s.storeRx (s.pos.toNat - 4) b :=
    if_pos (show s.pos.toNat - 4 < 1024 by omega)
  have hadvance (u : State) : feedAdvance s.pos.toNat u = u.atPos (s.pos.toNat + 1) :=
    if_neg (show s.pos.toNat + 1 ≠ 1029 by omega)
  simp [feed, hf, feedInFrame, h1, h2, h3, Config.payloadOffset, hlt, hstore, hadvance]

/-- The byte outside the buffer (R129, R130). -/
theorem feed_bound (hf : s.inFrame = true) (hp : s.pos.toNat = 1028) (hlen : 1024 < s.rxLength.toNat) (b : Byte) :
    feed b s = ((s.raise (.oversizeAbandon s.rxCommand s.rxLength)).toIdle, none) := by
  have hlt : 1028 < 4 + s.rxLength.toNat := by omega
  simp [feed, hf, feedInFrame, hp, Config.payloadOffset, Config.maxPayload, Config.maxFrame, hlt, feedPayload, feedAdvance]

/-- The checksum byte (R131). -/
theorem feed_checksum (hf : s.inFrame = true) (hp : s.pos.toNat = 4 + s.rxLength.toNat) (b : Byte) :
    feed b s = (s.toIdle, some (completedFrame b s)) := by
  obtain ⟨h1, h2, h3⟩ : s.pos.toNat ≠ 1 ∧ s.pos.toNat ≠ 2 ∧ s.pos.toNat ≠ 3 := by omega
  have hge : ¬ s.pos.toNat < 4 + s.rxLength.toNat := by omega
  simp [feed, hf, feedInFrame, h1, h2, h3, Config.payloadOffset, hge]

/-- In a state that meets R52 (a), (b): which of the arms a byte takes. `u` is the state with the consumed byte stored. -/
theorem feed_cases_of_parserInv (h : ParserInv s) (b : Byte) :
    (s.inFrame = false ∧ b ≠ Config.head ∧ feed b s = (s, none)) ∨
    (∃ u : State, u.diag = s.diag ∧ feed b s = (u.atPos (s.pos.toNat + 1), none)) ∨
    (s.inFrame = true ∧ feed b s = (s.toIdle, some (completedFrame b s))) ∨
    (s.inFrame = true ∧ s.pos.toNat = 1028 ∧ 1024 < s.rxLength.toNat ∧
      feed b s = ((s.raise (.oversizeAbandon s.rxCommand s.rxLength)).toIdle, none)) := by
  obtain ⟨⟨hidle, hrange⟩, hinside⟩ := h
  cases hf : s.inFrame with
  | false =>
    by_cases hb : b = Config.head
    · subst hb
      exact .inr (.inl ⟨s, rfl, by rw [feed_idle_head hf, hidle hf]; rfl⟩)
    · exact .inl ⟨rfl, hb, feed_idle_of_ne_head hf hb⟩
  | true =>
    obtain ⟨hge, hle⟩ := hrange hf
    right
    by_cases h1 : s.pos.toNat = 1
    · exact .inl ⟨s.withCommand b, rfl, by rw [feed_command hf h1, h1]⟩
    by_cases h2 : s.pos.toNat = 2
    · exact .inl ⟨s.withLength (le16 b (hi8 s.rxLength)), rfl, by rw [feed_lengthLow hf h2, h2]⟩
    by_cases h3 : s.pos.toNat = 3
    · exact .inl ⟨s.withLength (le16 (lo8 s.rxLength) b), rfl, by rw [feed_lengthHigh hf h3, h3]⟩
    have hpayload : 4 ≤ s.pos.toNat := by omega
    have hend := hinside hf hpayload
    by_cases hlast : s.pos.toNat = 4 + s.rxLength.toNat
    · exact .inr (.inl ⟨rfl, feed_checksum hf hlast b⟩)
    by_cases hbuf : s.pos.toNat ≤ 1027
    · exact .inl ⟨s.storeRx _ b, rfl, feed_payload hf hpayload (by omega) hbuf b⟩
    · have hp : s.pos.toNat = 1028 := by omega
      have hlen : 1024 < s.rxLength.toNat := by omega
      exact .inr (.inr ⟨rfl, hp, hlen, feed_bound hf hp hlen b⟩)

end

/-- Settles O11: the idle arm, then the command arm on the state it leaves. -/
theorem idleArm : Obligations.IdleArm := by
  refine fun s b hf => ⟨feed_idle_of_ne_head hf, feed_idle_head hf, ?_⟩
  have hstart : (feed 0xAA s).1 = s.atPos 1 := congrArg Prod.fst (feed_idle_head hf)
  rw [hstart]
  exact feed_command rfl rfl 0xAA

/-- Settles O12: the three header arms; each half of the length is read back from the 16-bit register. -/
theorem headerArms : Obligations.HeaderArms := by
  refine fun s b hf => ⟨fun hp => ?_, fun hp => ⟨le16 b (hi8 s.rxLength), ?_, ?_⟩,
    fun hp => ⟨le16 (lo8 s.rxLength) b, ?_, ?_⟩⟩
  · rw [feed_command hf (by rw [hp]; rfl), hf]; rfl
  · rw [feed_lengthLow hf (by rw [hp]; rfl), hf]; rfl
  · rw [le16_toNat, hi8_toNat]
  · rw [feed_lengthHigh hf (by rw [hp]; rfl), hf]; rfl
  · rw [le16_toNat, lo8_toNat]

/-- Settles O13: the payload arm inside the buffer, the checksum arm at `LENGTH` 0, and the bound. -/
theorem payloadArm : Obligations.PayloadArm := by
  refine fun s b hf hge => ⟨fun hlt hbuf => ?_, fun hlen hp => ?_, fun hlen hp => ?_⟩
  · refine ⟨s.rxbuf.write (s.pos.toNat - 4) b, ?_, Memory.read_write_self .., fun a ha => Memory.read_write_ne _ b ha⟩
    rw [feed_payload hf hge hlt hbuf, ← s.ofNat_pos_succ, hf]
    rfl
  · exact ⟨completedFrame b s, feed_checksum hf (by rw [hp, hlen]; rfl) b, rfl⟩
  · rw [feed_bound hf hp hlen]
    exact ⟨rfl, rfl, rfl⟩

/-- Settles O14: the bound, the checksum arm at the same offset, and the other arms, none of which raises. -/
theorem defensiveBound : Obligations.DefensiveBound := by
  refine fun s b => ⟨fun hf hp hlen => feed_bound hf hp hlen b, fun hf hp hlen => ?_, fun hinv hbound => ?_⟩
  · exact ⟨_, by rw [feed_checksum hf (by omega)]⟩
  · rcases feed_cases_of_parserInv hinv b with ⟨_, _, e⟩ | ⟨u, hdiag, e⟩ | ⟨_, e⟩ | ⟨hf, hp, hlen, _⟩
    · rw [e]
    · rw [e]; exact hdiag
    · rw [e]; rfl
    · exact absurd ⟨hf, hp, hlen⟩ hbound

/-- Settles O15: the checksum arm with its record written out. -/
theorem checksumArm : Obligations.ChecksumArm := by
  rintro s b _ _ hf hp rfl rfl
  exact feed_checksum hf hp b

/-- Settles O16: the fates of a byte under R52 (a), (b). -/
theorem everyByteHasOneFate : Obligations.EveryByteHasOneFate := by
  intro s b hinv
  rcases feed_cases_of_parserInv hinv b with hidle | ⟨u, hdiag, e⟩ | ⟨hf, e⟩ | ⟨hf, _, _, e⟩
  · exact .inl hidle
  · rw [e]
    exact .inr (.inl ⟨rfl, s.ofNat_pos_succ, rfl, hdiag⟩)
  · rw [e]
    exact .inr (.inr (.inl ⟨hf, rfl, ⟨_, rfl⟩, rfl⟩))
  · rw [e]
    exact .inr (.inr (.inr ⟨hf, rfl, rfl, rfl⟩))

/-- Settles O18: the fields `FEED` does not write, listed the other way round. -/
theorem feedFrame : Obligations.FeedFrame := fun s b => feed_eq_with_parser b s

end Sys2Proof.Machine

/-! Whole frames through the parser (40_frame_transport.md R123, R133, R134, R141). -/

namespace Sys2Proof.Machine

/-- The parser inside a frame, before the byte at offset `k`: header in its registers, payload so far in the buffer. -/
def State.receiving (s : State) (c : Byte) (n : Half) (m : Memory) (k : Nat) : State :=
  { s with inFrame := true, pos := BitVec.ofNat 11 k, rxCommand := c, rxLength := n, rxbuf := m }

theorem State.receiving_pos (s : State) (c : Byte) (n : Half) (m : Memory) {k : Nat} (hk : k ≤ 1028) :
    (s.receiving c n m k).pos.toNat = k :=
  Nat.mod_eq_of_lt (show k < 2048 by omega)

theorem feedAll_cons_of_none {b : Byte} {s t : State} (h : feed b s = (t, none)) (bs : List Byte) :
    feedAll (b :: bs) s = feedAll bs t := by
  simp [feedAll, h]

/-- Garbage without `HEAD`, while idle (R127). -/
theorem feedAll_idle_of_head_notMem {s : State} (hf : s.inFrame = false) {g : List Byte} (hg : Config.head ∉ g) :
    feedAll g s = (s, []) := by
  induction g with
  | nil => rfl
  | cons b g ih =>
    obtain ⟨hb, hg⟩ := not_or.mp (mt List.mem_cons.mpr hg)
    rw [feedAll_cons_of_none (feed_idle_of_ne_head hf (Ne.symm hb)), ih hg]

/-- `HEAD`, command and length, from idle: the two halves of `LENGTH` come together in its register (R127, R128). -/
theorem feedAll_header {s : State} (hf : s.inFrame = false) (c : Byte) (n : Half) (p : List Byte) :
    feedAll (covered c n p) s = feedAll p (s.receiving c n s.rxbuf 4) := by
  rw [covered, feedAll_cons_of_none (feed_idle_head hf), feedAll_cons_of_none (feed_command rfl rfl c),
    feedAll_cons_of_none (feed_lengthLow rfl rfl (lo8 n)), feedAll_cons_of_none (feed_lengthHigh rfl rfl (hi8 n))]
  simp only [State.atPos_rxLength, State.withLength_rxLength, lo8_le16, le16_lo_hi]
  rfl

/-- Payload bytes within `LENGTH` are stored one after the other, each at its index (R129). -/
theorem feedAll_payload (s : State) (c : Byte) {n : Half} (hn : n.toNat ≤ 1024) (p : List Byte) {m : Memory} {i : Nat}
    (hi : i + p.length ≤ n.toNat) :
    ∃ m', feedAll p (s.receiving c n m (4 + i)) = (s.receiving c n m' (4 + (i + p.length)), []) ∧
      m'.readFirst (i + p.length) = m.readFirst i ++ p := by
  induction p generalizing m i with
  | nil => exact ⟨m, rfl, (List.append_nil _).symm⟩
  | cons b p ih =>
    have hnext : i + (b :: p).length = i + 1 + p.length := by rw [List.length_cons]; omega
    rw [hnext] at hi ⊢
    have hpos : (s.receiving c n m (4 + i)).pos.toNat = 4 + i := s.receiving_pos c n m (by omega)
    have hinside : (s.receiving c n m (4 + i)).pos.toNat < 4 + n.toNat := by omega
    have hstep : feed b (s.receiving c n m (4 + i)) = (s.receiving c n (m.write i b) (4 + (i + 1)), none) := by
      rw [feed_payload rfl (by omega) hinside (by omega), hpos, Nat.add_sub_cancel_left]
      rfl
    obtain ⟨m', hfeed, hread⟩ := ih (m := m.write i b) hi
    refine ⟨m', by rw [feedAll_cons_of_none hstep, hfeed], ?_⟩
    rw [hread, Memory.readFirst_succ, Memory.readFirst_write_ge m b le_rfl, Memory.read_write_self, List.append_assoc,
      List.singleton_append]

/-- All of a frame but its checksum, fed to an idle parser, is held in its registers, and nothing has come back yet. -/
theorem feedAll_covered {s : State} (hf : s.inFrame = false) (c : Byte) {n : Half} {p : List Byte}
    (hn : n.toNat = p.length) (hp : p.length ≤ 1024) :
    ∃ m, feedAll (covered c n p) s = (s.receiving c n m (4 + p.length), []) ∧ m.readFirst p.length = p := by
  obtain ⟨m, hfeed, hread⟩ :=
    feedAll_payload s c (n := n) (by omega) p (m := s.rxbuf) (i := 0) (by omega)
  rw [Nat.zero_add] at hfeed hread
  exact ⟨m, by rw [feedAll_header hf, hfeed], hread⟩

/-- A frame with any checksum byte, fed to an idle parser, is returned once, valid exactly if the checksum is right, and the
parser is idle again (R131). -/
theorem feedAll_frame {s : State} (hf : s.inFrame = false) (c k : Byte) {n : Half} {p : List Byte}
    (hn : n.toNat = p.length) (hp : p.length ≤ 1024) :
    ∃ m, feedAll (covered c n p ++ [k]) s =
      ((s.receiving c n m (4 + p.length)).toIdle,
        [⟨decide (crc8 s.cfg (covered c n p) = k), c, n, p, k, crc8 s.cfg (covered c n p)⟩]) := by
  obtain ⟨m, hfeed, hread⟩ := feedAll_covered hf c hn hp
  have hpos : (s.receiving c n m (4 + p.length)).pos.toNat = 4 + n.toNat := by
    rw [s.receiving_pos c n m (by omega), hn]
  have hlast : feed k (s.receiving c n m (4 + p.length)) = ((s.receiving c n m (4 + p.length)).toIdle,
      some ⟨decide (crc8 s.cfg (covered c n p) = k), c, n, p, k, crc8 s.cfg (covered c n p)⟩) := by
    have hpayload : m.readFirst n.toNat = p := hn.symm ▸ hread
    rw [feed_checksum rfl hpos]
    simp only [completedFrame, State.receiving, hpayload]
  exact ⟨m, by rw [feedAll_append, hfeed]; simp [feedAll, hlast]⟩

/-- Settles O19: the checksum of the frame is the one the parser computes; before it, all bytes are held. -/
theorem frameRoundTripThroughParser : Obligations.FrameRoundTripThroughParser := by
  intro s c p hf hp
  refine ⟨?_, ?_⟩
  · obtain ⟨m, hfeed, _⟩ := feedAll_covered hf c (lengthOf_toNat hp) hp
    rw [frameBytes, List.dropLast_concat, hfeed]
  · obtain ⟨m, hfeed⟩ := feedAll_frame hf c (crc8 s.cfg (covered c (lengthOf p) p)) (lengthOf_toNat hp) hp
    rw [decide_eq_true rfl] at hfeed
    exact ⟨_, _, hfeed, rfl, rfl, rfl⟩

/-- Settles O20: the garbage leaves the idle state it was fed in, where the frame after it is received. -/
theorem resyncAfterGarbageWithoutSync : Obligations.ResyncAfterGarbageWithoutSync := by
  intro s g c p hf hg hp
  have hgarbage : feedAll g s = (s, []) := feedAll_idle_of_head_notMem hf hg
  obtain ⟨_, t, k, hframe, _⟩ := frameRoundTripThroughParser s c p hf hp
  exact ⟨hgarbage, _, by rw [feedAll_append, hgarbage, hframe, List.nil_append], rfl, rfl, rfl⟩

/-- Settles O26: R52 (d) says that the record's length and checksum are those of a frame. -/
theorem transmittedFramesAreValid : Obligations.TransmittedFramesAreValid := by
  intro s r hf ⟨hlen, hpayload, hchecksum⟩
  obtain ⟨m, hfeed⟩ := feedAll_frame hf r.command r.checksum hpayload.symm (hpayload ▸ hlen)
  have hcrc : crc8 s.cfg (covered r.command r.length r.payload) = r.checksum := hchecksum.symm
  rw [serialize, hfeed, hcrc, decide_eq_true rfl]

/-- Settles O10: the checksums differ, and the parser compares the kept one with the one of what it received. -/
theorem singleBitErrorsAreDetected : Obligations.SingleBitErrorsAreDetected := by
  refine ⟨fun cfg xs ys h => h.crc8_ne cfg, fun s c d p q hf hp hqp hbit => ?_⟩
  have hlength : lengthOf q = lengthOf p := by rw [lengthOf, hqp, lengthOf]
  have hq : q.length ≤ 1024 := hqp ▸ hp
  obtain ⟨m, hfeed⟩ := feedAll_frame hf d (crc8 s.cfg (covered c (lengthOf p) p)) (lengthOf_toNat hq) hq
  refine ⟨_, by rw [hfeed], decide_eq_false ?_⟩
  rw [hlength]
  exact ((hbit.covered (lengthOf p)).crc8_ne s.cfg).symm

end Sys2Proof.Machine

/-! `SEND` and `FLUSH` (40_frame_transport.md R135 to R137, R140). -/

namespace Sys2Proof.Machine

theorem send_of_oversize {p : List Byte} (hp : 1024 < p.length) (c : Byte) (s : State) :
    send c p s = (s.raise (.sendOversize c p.length), .rejected) :=
  if_pos hp

theorem send_of_full {p : List Byte} {s : State} (hp : p.length ≤ 1024) (hq : s.oq.length = s.cfg.qDepth) (c : Byte) :
    send c p s = (s, .rejected) := by
  rcases send_cases c p s with ⟨hlong, _⟩ | ⟨_, _, e⟩ | ⟨_, hroom, _⟩
  · omega
  · exact e
  · exact absurd hq hroom

theorem send_of_room {p : List Byte} {s : State} (hp : p.length ≤ 1024) (hq : s.oq.length ≠ s.cfg.qDepth) (c : Byte) :
    send c p s = (s.enqueue (mkRecord s.cfg c p), .accepted) := by
  rcases send_cases c p s with ⟨hlong, _⟩ | ⟨_, hfull, _⟩ | ⟨_, _, e⟩
  · omega
  · exact absurd hfull hq
  · exact e

/-- Legal frames sent without a drain: the queue holds the first that fit (R137). -/
theorem foldl_send {l : List (Byte × List Byte)} (hl : ∀ x ∈ l, x.2.length ≤ 1024) {s : State}
    (hq : s.oq.length ≤ s.cfg.qDepth) :
    l.foldl (fun u x => (send x.1 x.2 u).1) s =
      { s with oq := (s.oq ++ l.map (fun x => mkRecord s.cfg x.1 x.2)).take s.cfg.qDepth } := by
  induction l generalizing s with
  | nil => rw [List.foldl_nil, List.map_nil, List.append_nil, List.take_of_length_le hq]
  | cons x l ih =>
    obtain ⟨hx, hl⟩ := List.forall_mem_cons.mp hl
    rw [List.foldl_cons]
    by_cases hfull : s.oq.length = s.cfg.qDepth
    · rw [send_of_full hx hfull, ih hl hq, List.take_left' hfull, List.take_left' hfull]
    · have hroom : (s.enqueue (mkRecord s.cfg x.1 x.2)).oq.length ≤ s.cfg.qDepth := by simp; omega
      rw [send_of_room hx hfull, ih hl hroom, List.map_cons, ← List.singleton_append, ← List.append_assoc]
      rfl

/-- Settles O23: the three outcomes, the record written out. -/
theorem sendThreeOutcomes : Obligations.SendThreeOutcomes :=
  fun s c p => ⟨fun hp => send_of_oversize hp c s, fun hp hq => send_of_full hp hq c,
    fun hp hq => ⟨lengthOf p, lengthOf_toNat hp, send_of_room hp hq c⟩⟩

/-- Settles O24: by induction on the frames sent; a full queue stays what it is. -/
theorem queueSaturation : Obligations.QueueSaturation :=
  fun _ _ hq hl => ⟨foldl_send hl hq, fun hfull x hx => congrArg Prod.snd (send_of_full (hl x hx) hfull x.1)⟩

/-- Settles O25: the step applies `FLUSH`, whose serializer writes the wire format. -/
theorem flushDrainsInOrder : Obligations.FlushDrainsInOrder := fun _ _ hw hp => step_op hw hp

@[simp] theorem send_sendResults (c : Byte) (p : List Byte) (s : State) :
    (send c p s).1.sendResults = s.sendResults := by
  rcases send_cases c p s with ⟨_, e⟩ | ⟨_, _, e⟩ | ⟨_, _, e⟩ <;> rw [e] <;> rfl

/-- Settles O52: the step applies the host's `SEND`, whose result goes behind the earlier ones. -/
theorem hostSendStep : Obligations.HostSendStep := by
  intro s c p ops hw hp
  rw [step_op hw hp]
  simp only [applyOp, performHostOp, sendExternal, State.answerSend, send_sendResults]
  rfl

end Sys2Proof.Machine

/-! What a dispatch, and each handler it can run, leaves unchanged (41_command_dispatcher.md R163 to R166; 10_state.md R35 to
R42). -/

namespace Sys2Proof.Machine

/-- `t` is `s` but for the registers of a transition, its expression, the queue and the diagnostics. -/
def TransitionWrites (s t : State) : Prop := t = { s with
  currentState := t.currentState, previousState := t.previousState, stateEnterTimestamp := t.stateEnterTimestamp,
  currentExpressionId := t.currentExpressionId, expr := t.expr, oq := t.oq, diag := t.diag }

theorem TransitionWrites.transition (r : RealState) (s : State) : TransitionWrites s (transition r s) := by
  unfold TransitionWrites
  rcases transition_cases r s with ⟨_, e⟩ | ⟨_, _, e⟩ | ⟨_, _, e⟩ <;> rw [e] <;> rfl

theorem TransitionWrites.hSetState (p : List Byte) (s : State) : TransitionWrites s (hSetState p s) := by
  rcases hSetState_cases p s with ⟨_, e⟩ | ⟨_, _, _, _, e⟩ | ⟨_, _, r, _, _, e⟩ <;> rw [e]
  · exact rfl
  · exact rfl
  · exact .transition r s

theorem TransitionWrites.disp_eq {s t : State} (h : TransitionWrites s t) : t.disp = s.disp := by rw [h]

/-- What an external handler's reply can have done to `s` (R166; 60_exceptions.md R271): it wrote the value registers, sent, and
raised `DIAG_BAD_BATTERY` or `DIAG_SEND_OVERSIZE`. -/
structure WithinAuthority (s t : State) : Prop where
  writes : t = { s with
    batteryLevel := t.batteryLevel, servoHAngle := t.servoHAngle, servoVAngle := t.servoVAngle,
    oq := t.oq, diag := t.diag, sendResults := t.sendResults }
  queue : s.oq <+: t.oq
  raised : ∃ ds, t.diag = s.diag ++ ds ∧ ∀ d ∈ ds, d.code = 0x07 ∨ d.code = 0x08

namespace WithinAuthority

variable {s t : State}

theorem refl (s : State) : WithinAuthority s s := ⟨rfl, List.prefix_rfl, [], (List.append_nil _).symm, nofun⟩

theorem raise (h : WithinAuthority s t) {d : Diag} (hd : d.code = 0x07 ∨ d.code = 0x08) :
    WithinAuthority s (t.raise d) := by
  obtain ⟨ds, hdiag, hcode⟩ := h.raised
  refine ⟨congrArg (·.raise d) h.writes, h.queue, ds ++ [d], ?_, ?_⟩
  · rw [State.raise_diag, hdiag, List.append_assoc]
  · exact List.forall_mem_append.mpr ⟨hcode, List.forall_mem_singleton.mpr hd⟩

theorem enqueue (h : WithinAuthority s t) (r : FrameRec) : WithinAuthority s (t.enqueue r) :=
  ⟨congrArg (·.enqueue r) h.writes, h.queue.trans (List.prefix_append ..), h.raised⟩

theorem answerSend (h : WithinAuthority s t) (r : SendResult) : WithinAuthority s (t.answerSend r) :=
  { h with writes := congrArg (·.answerSend r) h.writes }

theorem sendExternal (h : WithinAuthority s t) (c : Byte) (p : List Byte) :
    WithinAuthority s (sendExternal c p t) := by
  have sent : WithinAuthority s (send c p t).1 := by
    rcases send_cases c p t with ⟨_, e⟩ | ⟨_, _, e⟩ | ⟨_, _, e⟩ <;> rw [e]
    · exact h.raise (.inr rfl)
    · exact h
    · exact h.enqueue _
  exact sent.answerSend _

theorem setBatteryLevel (h : WithinAuthority s t) (v : Byte) : WithinAuthority s (setBatteryLevel v t) := by
  rcases setBatteryLevel_cases v t with ⟨_, e⟩ | ⟨_, e⟩ <;> rw [e]
  · exact { h with writes := congrArg (·.withBattery v) h.writes }
  · exact h.raise (.inl rfl)

theorem performHandlerOp (h : WithinAuthority s t) (op : HandlerOp) : WithinAuthority s (performHandlerOp op t) := by
  cases op with
  | send c p => exact h.sendExternal c p
  | setBatteryLevel v => exact h.setBatteryLevel v
  | setServoAngles x y => exact { h with writes := congrArg (·.withServos x y) h.writes }

theorem performReply (ops : List HandlerOp) (s : State) : WithinAuthority s (performReply ops s) :=
  performReply_induction (fun op _ h => h.performHandlerOp op) ops s (.refl s)

theorem disp_eq (h : WithinAuthority s t) : t.disp = s.disp := by rw [h.writes]

end WithinAuthority

/-- `t` is `s` but for what some handler, or its `DISP` event, can have written. -/
def DispatchWrites (s t : State) : Prop := t = { s with
  currentState := t.currentState, previousState := t.previousState, stateEnterTimestamp := t.stateEnterTimestamp,
  currentExpressionId := t.currentExpressionId, expr := t.expr, batteryLevel := t.batteryLevel,
  servoHAngle := t.servoHAngle, servoVAngle := t.servoVAngle, disp := t.disp, oq := t.oq, diag := t.diag,
  sendResults := t.sendResults }

theorem TransitionWrites.dispatchWrites {s t : State} (h : TransitionWrites s t) : DispatchWrites s t := by
  rw [h]; rfl

theorem WithinAuthority.dispatchWrites {s t : State} (h : WithinAuthority s t) : DispatchWrites s t := by
  rw [h.writes]; rfl

namespace DispatchWrites

theorem dispatch (c : Byte) (p : List Byte) (s : State) : DispatchWrites s (dispatch c p s) := by
  rcases dispatch_cases c p s with ⟨_, e⟩ | ⟨_, e⟩ | ⟨r, _, e⟩ <;> rw [e]
  · exact rfl
  · exact (TransitionWrites.hSetState p s).dispatchWrites
  · exact (WithinAuthority.performReply s.reply (s.emitDisp ⟨r, c, lengthOf p, p⟩)).dispatchWrites

/-- The parser with every byte of `RXBUF`, the ports, the table, `running` and `TX` are not among what is written. -/
theorem unchanged {s t : State} (h : DispatchWrites s t) :
    SameParser s t ∧ SamePorts s t ∧ t.dtab = s.dtab ∧ t.running = s.running ∧ t.tx = s.tx := by
  rw [h]
  exact ⟨⟨rfl, rfl, rfl, rfl, fun _ => rfl⟩, ⟨rfl, rfl, rfl, rfl⟩, rfl, rfl, rfl⟩

theorem dtab_eq {s t : State} (h : DispatchWrites s t) : t.dtab = s.dtab := by rw [h]

end DispatchWrites

/-- Settles O34: the queue and `DIAG` grow as each operation lets them; nothing else named here is written. -/
theorem externalHandlerAuthority : Obligations.ExternalHandlerAuthority := by
  rintro ops s _ rfl
  have h := WithinAuthority.performReply ops s
  obtain ⟨hparser, hports, hdtab, hrunning, htx⟩ := h.dispatchWrites.unchanged
  obtain ⟨htransition, _⟩ := (Quiet.performReply ops s).sameTransition
  exact ⟨hparser, htransition, hports, hdtab, hrunning, htx, h.disp_eq, h.queue, h.raised⟩

/-! `DISPATCH` by the table entry, and the thirteen commands as its uses (R163, R165, R170 to R182). -/

section

variable {s : State} {c : Byte}

theorem dispatch_of_unbound (h : s.dtab.get c = .unbound) (p : List Byte) :
    dispatch c p s = s.raise (.unhandledCommand c (lengthOf p)) := by
  rw [dispatch, h]

theorem dispatch_of_internal (h : s.dtab.get c = .bound .setState) (p : List Byte) :
    dispatch c p s = hSetState p s := by
  rw [dispatch, h]

theorem dispatch_of_route {r : Route} (h : s.dtab.get c = .bound (.ext r)) (p : List Byte) :
    dispatch c p s = performReply s.reply (s.emitDisp ⟨r, c, lengthOf p, p⟩) := by
  rw [dispatch, h]

theorem dispatch_sameTransition (h : s.dtab.get c ≠ .bound .setState) (p : List Byte) :
    SameTransition s (dispatch c p s) := by
  rcases dispatch_cases c p s with ⟨_, e⟩ | ⟨hset, _⟩ | ⟨r, _, e⟩
  · rw [e]; exact ⟨rfl, rfl, rfl, rfl, rfl⟩
  · exact absurd hset h
  · rw [e]; exact (Quiet.performReply s.reply (s.emitDisp _)).sameTransition.1

theorem dispatch_sameValues (h : ∀ r, s.dtab.get c ≠ .bound (.ext r)) (p : List Byte) :
    SameValues s (dispatch c p s) ∧ (dispatch c p s).disp = s.disp ∧ (dispatch c p s).sendResults = s.sendResults := by
  have hwrites : TransitionWrites s (dispatch c p s) := by
    rcases dispatch_cases c p s with ⟨_, e⟩ | ⟨_, e⟩ | ⟨r, hr, _⟩
    · rw [e]; exact rfl
    · rw [e]; exact .hSetState p s
    · exact absurd hr (h r)
  rw [hwrites]
  exact ⟨⟨rfl, rfl, rfl⟩, rfl, rfl⟩

end

/-- Settles O30: a command's meaning is its dispatch, and the dispatch of an unbound entry raises. -/
theorem unboundCommandIsReported : Obligations.UnboundCommandIsReported :=
  ⟨fun i s h => (exec_eq i s).trans (congrArg _ (dispatch_of_unbound h i.payload)), fun _ p _ h => dispatch_of_unbound h p⟩

/-- Settles O31: a command's meaning is its dispatch, and the dispatch of a route emits and performs. -/
theorem boundCommandIsRouted : Obligations.BoundCommandIsRouted :=
  fun i s _ h => (exec_eq i s).trans (congrArg _ (dispatch_of_route h i.payload))

/-- Settles O32: an empty reply does nothing, and the length field holds the length of a well-formed payload. -/
theorem boundCommandWithEmptyReply : Obligations.BoundCommandWithEmptyReply := by
  intro i s r hi hreply h
  refine ⟨lengthOf i.payload, lengthOf_toNat (of_decide_eq_true hi), ?_⟩
  rw [boundCommandIsRouted i s r h, hreply]
  rfl

/-- Settles O35: the table entry decides which one it is, and each one leaves the trace of the others out. -/
theorem exactlyOneDelivery : Obligations.ExactlyOneDelivery := by
  intro i s
  refine ⟨_, exec_eq i s, ?_⟩
  rcases dispatch_cases (s.cfg.cmd i.command) i.payload s with ⟨hent, e⟩ | ⟨hent, e⟩ | ⟨r, hent, e⟩ <;> rw [e]
  · exact .inr (.inl ⟨hent, rfl, rfl⟩)
  · exact .inr (.inr ⟨hent, (TransitionWrites.hSetState i.payload s).disp_eq, rfl⟩)
  · have h := WithinAuthority.performReply s.reply (s.emitDisp ⟨r, s.cfg.cmd i.command, lengthOf i.payload, i.payload⟩)
    obtain ⟨ds, hdiag, hcode⟩ := h.raised
    rw [State.emitDisp_diag] at hdiag
    refine .inl ⟨r, hent, h.disp_eq, ?_⟩
    rwa [hdiag, List.drop_left]

/-- Settles O36: the frame of the dispatch, and what is sharper of it by the table entry. -/
theorem commandFrame : Obligations.CommandFrame := by
  intro i s t h
  cases (exec_eq i s).symm.trans h
  obtain ⟨hparser, hports, hdtab, hrunning, htx⟩ := (DispatchWrites.dispatch (s.cfg.cmd i.command) i.payload s).unchanged
  obtain ⟨_, hqueue⟩ : QueueKept s (dispatch (s.cfg.cmd i.command) i.payload s) :=
    (Handled.dispatch _ _ s).keeps (QueueKept s) (fun _ _ => .quietUpdate) (fun r _ => .transition r)
      ⟨rfl, List.prefix_rfl⟩
  exact ⟨hparser, hports, hdtab, hrunning, htx, hqueue, fun hent => dispatch_sameTransition hent _,
    fun hent => dispatch_sameValues hent _⟩

theorem sendExternal_eq (c : Byte) (p : List Byte) (s : State) : sendExternal c p s =
    { (send c p s).1 with sendResults := s.sendResults ++ [(send c p s).2] } := by
  rw [← send_sendResults c p s]; rfl

/-- Settles O33: each operation's own outcomes; replies compose as lists do. -/
theorem replyIsPerformedInOrder : Obligations.ReplyIsPerformedInOrder := by
  refine ⟨performReply_append, fun s v => ?_, fun s h v => rfl, fun s c p => sendExternal_eq c p s⟩
  rcases setBatteryLevel_cases v s with ⟨hv, e⟩ | ⟨hv, e⟩
  · rw [if_pos hv]; exact e
  · rw [if_neg (Nat.not_le.mpr hv)]; exact e

/-! A set-state request for a real state (R176; 42_behavior_controller.md R200, R205). -/

theorem transition_of_room {s : State} {r : RealState} (hne : s.currentState ≠ s.cfg.enc r)
    (hroom : s.oq.length ≠ s.cfg.qDepth) : transition r s =
      ((s.enterState (s.cfg.enc r) (exprOf r)).emitExpr (exprOf r)).enqueue (statusRecord s (s.cfg.enc r) (exprOf r)) := by
  rcases transition_cases r s with ⟨hself, _⟩ | ⟨_, hfull, _⟩ | ⟨_, _, e⟩
  · exact absurd hself hne
  · exact absurd hfull hroom
  · exact e

/-- Bound to the internal handler, a request for a real state is that transition, whatever bytes follow (R205, R206). -/
theorem exec_setState_enc {s : State} (hw : s.cfg.wf) (hbound : s.dtab.get 0x07 = .bound .setState) (r : RealState)
    (more : List Byte) : exec (.setState (s.cfg.enc r :: more)) s = .next (transition r s) := by
  have hhandler : hSetState (s.cfg.enc r :: more) s = transition r s := by rw [hSetState, Config.realOf_enc hw]
  exact congrArg _ ((dispatch_of_internal hbound _).trans hhandler)

/-- Settles O38: the request is the transition, and with room in the queue its status frame is queued. -/
theorem setStateTransition : Obligations.SetStateTransition :=
  fun _ r more hw hbound hne hroom =>
    (exec_setState_enc hw hbound r more).trans (congrArg _ (transition_of_room hne hroom))

/-! `BIND` (R160 to R162). -/

theorem inCmdSet_eq_false_iff {cfg : Config} {c : Byte} : cfg.inCmdSet c = false ↔ ∀ x, cfg.cmd x ≠ c := by
  rw [Config.inCmdSet, Option.isSome_eq_false_iff, Option.isNone_iff_eq_none, Config.commandOf_eq_none_iff]

theorem bind_of_refused {s : State} {c : Byte} {h : Handler}
    (hno : s.cfg.inCmdSet c = false ∨ (h = .setState ∧ c ≠ Config.cmdSetState)) : bind c h s = s.raise (.badBind c) := by
  rcases bind_cases c h s with ⟨_, e⟩ | ⟨hin, hset, _⟩
  · exact e
  · rcases hno with hout | ⟨hx, hne⟩
    · cases hin.symm.trans hout
    · exact absurd (hset hx) hne

theorem bind_of_accepted {s : State} {c : Byte} {h : Handler} (hin : s.cfg.inCmdSet c = true)
    (hset : h = .setState → c = Config.cmdSetState) : bind c h s = s.setEntry c (.bound (h.atPort s.cfg.routeW)) := by
  rcases bind_cases c h s with ⟨hout | ⟨hx, hne⟩, _⟩ | ⟨_, _, e⟩
  · cases hin.symm.trans hout
  · exact absurd (hset hx) hne
  · exact e

/-- Settles O28: the step applies `BIND`, whose one write is the entry, of a route that fits its port. -/
theorem bindOutcomes : Obligations.BindOutcomes := by
  intro s c h ops hw hp
  have hstep : step s = .next (bind c h (s.withPending ops)) := step_op hw hp
  refine ⟨fun hno => ?_, fun hin hset hroute =>
    ⟨s.dtab.put c (.bound h), ?_, Dtab.get_put_self .., fun e he => Dtab.get_put_ne _ _ he⟩⟩
  · exact hstep.trans (congrArg _ (bind_of_refused (hno.imp_left inCmdSet_eq_false_iff.mpr)))
  · have hbind := bind_of_accepted (s := s.withPending ops) (inCmdSet_of_cmd hin) hset
    rw [State.withPending_cfg, atPort_of_fits hroute] at hbind
    exact hstep.trans (congrArg _ hbind)

/-- `BIND` writes bound entries only, so it leaves a bound entry bound (R162). -/
theorem bind_keeps_bound {s : State} {d : Byte} (hd : s.dtab.get d ≠ .unbound) (c : Byte) (h : Handler) :
    (bind c h s).dtab.get d ≠ .unbound := by
  rcases bind_cases c h s with ⟨_, e⟩ | ⟨_, _, e⟩ <;> rw [e]
  · exact hd
  · rw [State.setEntry_dtab, Dtab.get_put]
    split
    · exact nofun
    · exact hd

theorem performHostOp_keeps_bound {s : State} {d : Byte} (hd : s.dtab.get d ≠ .unbound) (op : HostOp) :
    (performHostOp op s).dtab.get d ≠ .unbound := by
  cases op with
  | send c p => exact ((WithinAuthority.refl s).sendExternal c p).dispatchWrites.dtab_eq ▸ hd
  | setBatteryLevel v => exact ((WithinAuthority.refl s).setBatteryLevel v).dispatchWrites.dtab_eq ▸ hd
  | setServoAngles h v => exact hd
  | setRunning b => exact hd
  | bind c h => exact bind_keeps_bound hd c h

@[simp] theorem feed_dtab (b : Byte) (s : State) : (feed b s).1.dtab = s.dtab := by
  obtain ⟨_, e⟩ := feed_eq_with_parser b s
  rw [e]

@[simp] theorem transition_dtab (r : RealState) (s : State) : (transition r s).dtab = s.dtab :=
  (TransitionWrites.transition r s).dispatchWrites.dtab_eq

@[simp] theorem timerCheck_dtab (s : State) : (timerCheck s).dtab = s.dtab := by
  rcases timerCheck_cases s with ⟨_, _, _, e⟩ | ⟨_, e⟩ <;> rw [e]
  exact transition_dtab .listen s

@[simp] theorem dispatch_dtab (c : Byte) (p : List Byte) (s : State) : (dispatch c p s).dtab = s.dtab :=
  (DispatchWrites.dispatch c p s).dtab_eq

theorem StepKind.keeps_bound {s t : State} (hk : StepKind s t) {c : Byte} (hc : s.dtab.get c ≠ .unbound) :
    t.dtab.get c ≠ .unbound := by
  cases hk with
  | idle => exact hc
  | init now =>
    have hbind := bind_keeps_bound (s := s.sampleNow now) hc Config.cmdSetState .setState
    rwa [← transition_dtab .sleep] at hbind
  | host op => exact performHostOp_keeps_bound hc op
  | fed x => rwa [feed_dtab]
  | dispatched x f _ => rwa [dispatch_dtab, feed_dtab]
  | mismatch x f _ => rwa [State.raise_dtab, feed_dtab]
  | flush => exact hc
  | timer now => rwa [timerCheck_dtab]

/-- Settles O29: only `BIND` writes the table, and only bound entries; `RESET` is excluded. -/
theorem noUnbind : Obligations.NoUnbind := by
  intro s t c h hr hc
  obtain ⟨_, ops, ⟨⟨more, hp⟩, _⟩ | hk⟩ := step_cases h
  · exact absurd hp (hr more)
  · exact hk.keeps_bound hc

end Sys2Proof.Machine

/-! The Behavior Controller: one equation per case of `TRANSITION`, the set-state handler, `TIMER_CHECK` and `INIT`
(42_behavior_controller.md R200 to R217). -/

namespace Sys2Proof.Machine

theorem transition_of_self {s : State} {r : RealState} (hself : s.currentState = s.cfg.enc r) : transition r s = s :=
  if_pos hself.symm

theorem transition_of_full {s : State} {r : RealState} (hne : s.currentState ≠ s.cfg.enc r)
    (hfull : s.oq.length = s.cfg.qDepth) : transition r s =
      ((s.enterState (s.cfg.enc r) (exprOf r)).emitExpr (exprOf r)).raise (.queueFull s.cfg.statusCmd) := by
  rcases transition_cases r s with ⟨hself, _⟩ | ⟨_, _, e⟩ | ⟨_, hroom, _⟩
  · exact absurd hself hne
  · exact e
  · exact absurd hfull hroom

/-- Real or no-op, with or without room in the queue, a transition ends in its state (R207). -/
@[simp] theorem transition_currentState (r : RealState) (s : State) : (transition r s).currentState = s.cfg.enc r := by
  rcases transition_cases r s with ⟨hself, e⟩ | ⟨_, _, e⟩ | ⟨_, _, e⟩ <;> rw [e]
  · exact hself
  · rfl
  · rfl

/-- Bound to the internal handler, a byte that encodes no real state is reported (R205; 60_exceptions.md R265). -/
theorem exec_setState_invalid {s : State} (hbound : s.dtab.get 0x07 = .bound .setState) {v : Byte}
    (hv : ∀ r, s.cfg.enc r ≠ v) (more : List Byte) :
    exec (.setState (v :: more)) s = .next (s.raise (.invalidState (some v))) := by
  have hhandler : hSetState (v :: more) s = s.raise (.invalidState (some v)) := by
    rw [hSetState, Config.realOf_eq_none_iff.mpr hv]
  exact congrArg _ ((dispatch_of_internal hbound _).trans hhandler)

/-- Settles O37: the handler's two rejections, each of which raises and does nothing else. -/
theorem invalidStateRequestIsRejected : Obligations.InvalidStateRequestIsRejected :=
  fun _ hbound => ⟨congrArg _ (dispatch_of_internal hbound []), fun _ more hv => exec_setState_invalid hbound hv more⟩

/-- Settles O39: with a full queue the transition raises in place of queueing, and an accepted request is that transition. -/
theorem setStateWithFullQueue : Obligations.SetStateWithFullQueue := by
  intro s r hne hfull
  have htransition := transition_of_full hne hfull
  exact ⟨htransition, fun hw hbound more => (exec_setState_enc hw hbound r more).trans (congrArg _ htransition)⟩

/-- Settles O40: the transition is the identity, and an accepted request is that transition. -/
theorem selfTransitionChangesNothing : Obligations.SelfTransitionChangesNothing := by
  intro s r hself
  have htransition := transition_of_self hself
  exact ⟨htransition, fun hw hbound more => (exec_setState_enc hw hbound r more).trans (congrArg _ htransition)⟩

/-- Settles O41: the expression pushed and the status record queued are the ones of the state entered. -/
theorem transitionCoverage : Obligations.TransitionCoverage := by
  intro s r hne hroom
  rw [transition_of_room hne hroom]
  refine ⟨exprOf r, statusRecord s (s.cfg.enc r) (exprOf r), rfl, rfl, rfl, rfl, ?_⟩
  cases r <;> rfl

/-! `TIMER_CHECK` (R210, R211). -/

theorem timerCheck_of_due {s : State} (hrun : s.running = true) (hwake : s.currentState = s.cfg.stWake)
    (hexpired : 2000 ≤ elapsed s) : timerCheck s = transition .listen s :=
  if_pos ⟨hrun, hwake, hexpired⟩

theorem timerCheck_of_not_due {s : State}
    (h : s.running = false ∨ s.currentState ≠ s.cfg.stWake ∨ elapsed s < 2000) : timerCheck s = s := by
  rcases timerCheck_cases s with ⟨hrun, hwake, hexpired, _⟩ | ⟨_, e⟩
  · rcases h with hstopped | hother | hearly
    · cases hrun.symm.trans hstopped
    · exact absurd hwake hother
    · exact absurd hexpired (Nat.not_le.mpr hearly)
  · exact e

/-- Settles O43: the check compares the time sampled in this step, and its transition leaves `WAKE` for another state. -/
theorem timerLeavesWake : Obligations.TimerLeavesWake := by
  intro s now e ops hw hp he
  let u := (s.withPending ops).sampleNow now
  have hstep : step s = .next (timerCheck u) := step_op hw hp
  have helapsed : elapsed u = e := by exact_mod_cast (elapsed_sampleNow (s.withPending ops) now).trans he.symm
  have hleaves : s.currentState = s.cfg.stWake → u.currentState ≠ u.cfg.enc .listen :=
    fun hwake hlisten => by cases Config.enc_inj hw (r := .wake) (q := .listen) (hwake.symm.trans hlisten)
  have hfires : s.running = true → s.currentState = s.cfg.stWake → 2000 ≤ e → timerCheck u = transition .listen u :=
    fun hrun hwake hexpired => timerCheck_of_due hrun hwake (helapsed ▸ hexpired)
  refine ⟨fun hrun hwake hexpired hroom => ?_, fun hrun hwake hexpired hfull => ?_, fun h => ?_⟩
  · rw [hstep, hfires hrun hwake hexpired, transition_of_room (hleaves hwake) hroom, ← hwake]
    rfl
  · rw [hstep, hfires hrun hwake hexpired, transition_of_full (hleaves hwake) hfull, ← hwake]
    rfl
  · rw [hstep, timerCheck_of_not_due (helapsed ▸ h)]
    rfl

/-! `INIT` (R215). -/

/-- A transition neither reads nor writes `running`. -/
theorem transition_withRunning (r : RealState) (b : Bool) (s : State) :
    transition r (s.withRunning b) = (transition r s).withRunning b := by
  rcases transition_cases r s with ⟨hself, e⟩ | ⟨hne, hfull, e⟩ | ⟨hne, hroom, e⟩ <;> rw [e]
  · exact transition_of_self hself
  · exact transition_of_full hne hfull
  · exact transition_of_room hne hroom

/-- Under a legal configuration the `BIND` of `INIT` is accepted; it and `running` may be set before the transition. -/
theorem initOp_eq {s : State} (hw : s.cfg.wf) :
    initOp s = transition .sleep ((s.setEntry 0x07 (.bound .setState)).withRunning true) := by
  have hbind : bind Config.cmdSetState .setState s = s.setEntry 0x07 (.bound .setState) :=
    bind_of_accepted (Config.inCmdSet_cmd hw .setState) (fun _ => rfl)
  rw [initOp, hbind, transition_withRunning]
  rfl

/-- An `INIT` step is the transition to `SLEEP`, with the rest of its writes already made. -/
theorem step_init {s : State} {now : Time} {ops : List Op} (hw : s.cfg.wf) (hp : s.pending = .init now :: ops) :
    step s = .next (transition .sleep { s with
      pending := ops, nowMs := now % 2 ^ s.cfg.timeW, dtab := s.dtab.put 0x07 (.bound .setState), running := true }) :=
  (step_op hw hp).trans (congrArg _ (initOp_eq (s := (s.withPending ops).sampleNow now) hw))

/-- Settles O45: the step binds one entry, sets `running`, and makes the transition to `SLEEP` in each of its three cases. -/
theorem initStep : Obligations.InitStep := by
  intro s now ops hw hp
  have hstep := step_init hw hp
  exact ⟨s.dtab.put 0x07 (.bound .setState), Dtab.get_put_self .., fun c hc => Dtab.get_put_ne _ _ hc,
    fun hself => hstep.trans (congrArg _ (transition_of_self hself)),
    fun hne hroom => hstep.trans (congrArg _ (transition_of_room hne hroom)),
    fun hne hfull => hstep.trans (congrArg _ (transition_of_full hne hfull))⟩

/-- Settles O42: each event of the table is a transition into its state, or leaves the state. -/
theorem stateTransitionTable : Obligations.StateTransitionTable := by
  intro s hw
  refine ⟨fun hbound v more => ?_, fun e he hrun hexpired => ?_, ?_⟩
  · by_cases hv : ∃ r, s.cfg.enc r = v
    · obtain ⟨r, rfl⟩ := hv
      exact ⟨_, exec_setState_enc hw hbound r more, .inl ⟨r, rfl, transition_currentState r s⟩⟩
    · rw [not_exists] at hv
      exact ⟨_, exec_setState_invalid hbound hv more, .inr ⟨hv, rfl⟩⟩
  · have helapsed : elapsed s = e := by exact_mod_cast (elapsed_eq s).trans he.symm
    split
    next hwake =>
      rw [timerCheck_of_due hrun hwake (helapsed ▸ hexpired)]
      exact transition_currentState .listen s
    next hother => rw [timerCheck_of_not_due (.inr (.inl hother))]
  · rw [initOp_eq hw]
    exact transition_currentState .sleep _

/-- Settles O46: a state that a step enters is a transition's, so a real one, and no real state is encoded as `IDLE`. -/
theorem idleIsNeverReentered : Obligations.IdleIsNeverReentered := by
  intro s t h hr
  obtain ⟨hw, _⟩ := step_cases h
  rcases transitionRegistersChangeTogether s t h hr with ⟨hcur, _⟩ | ⟨_, _, _, r, hcur, _⟩
  · exact .inl hcur
  · exact .inr ⟨hcur ▸ Config.enc_ne_idle hw r, r, hcur⟩

/-- Settles O44: the step applies the setter, whose one write or diagnostic is said by its own cases. -/
theorem settersWriteTheirRegister : Obligations.SettersWriteTheirRegister := by
  intro s ops hw
  refine ⟨fun v hp => ?_, fun _ _ hp => step_op hw hp, fun _ hp => step_op hw hp⟩
  have hstep : step s = .next (setBatteryLevel v (s.withPending ops)) := step_op hw hp
  rcases setBatteryLevel_cases v (s.withPending ops) with ⟨hle, e⟩ | ⟨hgt, e⟩
  · exact ⟨fun _ => hstep.trans (congrArg _ e), fun hgt => absurd hle (Nat.not_le.mpr hgt)⟩
  · exact ⟨fun hle => absurd hle (Nat.not_le.mpr hgt), fun _ => hstep.trans (congrArg _ e)⟩

end Sys2Proof.Machine

/-! The tick loop: one `RX_BYTE`, the phases of a `TICK`, a frame on the wire (43_tick_loop.md R240, R242, R246). -/

namespace Sys2Proof.Machine

theorem step_withPending_cons {s : State} (hw : s.cfg.wf) (op : Op) (ops : List Op) :
    step (s.withPending (op :: ops)) = applyOp op (s.withPending ops) :=
  step_op (s := s.withPending (op :: ops)) hw rfl

/-! One `RX_BYTE` (R242). -/

/-- The samples of an `RX_BYTE` at the ports: the state that its byte is fed to (R244, R166). -/
def State.sampled (s : State) (now : Time) (reply : List HandlerOp) : State := (s.sampleNow now).withReply reply

section

variable {s u : State} {x : RxSample}

theorem rxByte_of_none (h : feed x.byte (s.sampled x.now x.reply) = (u, none)) : rxByte x s = .next u := by
  unfold State.sampled at h
  rw [rxByte, h]

theorem rxByte_of_invalid {f : RxFrame} (h : feed x.byte (s.sampled x.now x.reply) = (u, some f)) (hv : f.valid = false) :
    rxByte x s = .next (u.raise (.checksumMismatch f.command f.length f.received f.computed)) := by
  unfold State.sampled at h
  simp [rxByte, h, hv]

theorem rxByte_of_valid {f : RxFrame} (h : feed x.byte (s.sampled x.now x.reply) = (u, some f)) (hv : f.valid = true) :
    rxByte x s = .next (dispatch f.command f.payload u) := by
  unfold State.sampled at h
  simp [rxByte, h, hv, deliver_eq]

end

/-- Settles O53: the step applies the `RX_BYTE`, which goes by what `FEED` returns. -/
theorem rxByteStep : Obligations.RxByteStep := by
  intro s u x ops hw hp
  have hstep : step s = rxByte x (s.withPending ops) := step_op hw hp
  refine ⟨fun h => ?_, fun f h hv => ?_, fun f h hv => ?_⟩
  · exact hstep.trans (rxByte_of_none h)
  · exact hstep.trans (rxByte_of_invalid h hv)
  · exact hstep.trans (rxByte_of_valid h hv)

/-! The byte that completes an instruction (R163, R242). -/

/-- When the bytes held and one more decode, they are the instruction's own frame: its command, its payload and the checksum
of what is held. -/
theorem held_of_decode {s : State} {b : Byte} {i : Instr} (h : decode s.cfg (heldBytes s ++ [b]) = .ok i []) :
    s.rxCommand = s.cfg.cmd i.command ∧ s.rxbuf.readFirst s.rxLength.toNat = i.payload ∧
      crc8 s.cfg (heldBytes s) = b := by
  obtain ⟨hframe, _⟩ := encode_of_decode h
  rw [List.append_nil, encode, frameBytes] at hframe
  obtain ⟨hheld, hsum⟩ := List.append_inj' hframe rfl
  have hparts := hheld
  simp only [heldBytes, covered, List.cons.injEq, true_and] at hparts
  obtain ⟨hcommand, _, _, hpayload⟩ := hparts
  rw [hheld]
  exact ⟨hcommand, hpayload, (List.singleton_inj.mp hsum).symm⟩

/-- The parser takes the byte as a right checksum, and the valid frame goes where its command's meaning sends it. -/
theorem rxByte_of_decode {s : State} {x : RxSample} {i : Instr} (hf : s.inFrame = true)
    (hpos : s.pos.toNat = 4 + s.rxLength.toNat) (hdecode : decode s.cfg (heldBytes s ++ [x.byte]) = .ok i []) :
    rxByte x s = exec i (s.sampled x.now x.reply).toIdle := by
  obtain ⟨hcommand, hpayload, hsum⟩ := held_of_decode hdecode
  have hfeed : feed x.byte (s.sampled x.now x.reply) = ((s.sampled x.now x.reply).toIdle, some (completedFrame x.byte s)) :=
    feed_checksum (s := s.sampled x.now x.reply) hf hpos x.byte
  have hvalid : (completedFrame x.byte s).valid = true := decide_eq_true hsum
  rw [rxByte_of_valid hfeed hvalid, exec_eq]
  simp only [completedFrame, hcommand, hpayload]
  rfl

theorem State.toIdle_sampled_withPending (s : State) (now : Time) (reply : List HandlerOp) (ops : List Op) :
    ((s.withPending ops).sampled now reply).toIdle = { s with
      inFrame := false, pos := 0, nowMs := now % 2 ^ s.cfg.timeW, reply := reply, pending := ops } := by
  simp only [toIdle, sampled, withReply, sampleNow, withPending]

/-- Settles O54: an `RX_BYTE` and the next item of a `TICK` differ only in what they leave on the schedule. -/
theorem stepRunsDecodedInstruction : Obligations.StepRunsDecodedInstruction := by
  intro s x i ops hw hf hpos hdecode
  have hrun (rest : List Op) : rxByte x (s.withPending rest) = exec i { s with
      inFrame := false, pos := 0, nowMs := x.now % 2 ^ s.cfg.timeW, reply := x.reply, pending := rest } := by
    rw [← s.toIdle_sampled_withPending]
    exact rxByte_of_decode (s := s.withPending rest) hf hpos hdecode
  exact ⟨fun hp => (step_op hw hp).trans (hrun ops), fun items before now hp =>
    (step_op hw hp).trans (hrun (.tick items before now :: ops))⟩

/-! A frame on the wire (R134, R242). -/

/-- The `RX_BYTE`s of some bytes, every one with the same samples. -/
def rxBytes (now : Time) (reply : List HandlerOp) (bs : List Byte) : List Op := bs.map (fun b => .rxByte ⟨b, now, reply⟩)

/-- `FEED` leaves the ports as they were sampled. -/
theorem feed_sampled (b : Byte) (s : State) (now : Time) (reply : List HandlerOp) :
    (feed b (s.sampled now reply)).1.sampled now reply = (feed b (s.sampled now reply)).1 := by
  obtain ⟨u, e⟩ := feed_eq_with_parser b (s.sampled now reply)
  rw [e]
  rfl

theorem feedAll_cons_eq_nil {b : Byte} {bs : List Byte} {s t : State} (h : feedAll (b :: bs) s = (t, [])) :
    (feed b s).2 = none ∧ feedAll bs (feed b s).1 = (t, []) := by
  rw [feedAll, Prod.mk.injEq, List.append_eq_nil_iff, Option.toList_eq_nil_iff] at h
  obtain ⟨hstate, hnone, hframes⟩ := h
  exact ⟨hnone, Prod.ext hstate hframes⟩

/-- Bytes that complete no frame, received one per step: the byte after them comes to the state that `FEED` of them gives. -/
theorem runSteps_rxBytes {now : Time} {reply : List HandlerOp} {bs : List Byte} {s t : State} (hw : s.cfg.wf)
    (h : feedAll bs (s.sampled now reply) = (t, [])) (k : Byte) (ops : List Op) :
    ∃ u, runSteps bs.length (s.withPending (rxBytes now reply (bs ++ [k]) ++ ops)) = .next u ∧
      step u = rxByte ⟨k, now, reply⟩ (t.withPending ops) := by
  induction bs generalizing s with
  | nil =>
    obtain ⟨rfl, _⟩ := Prod.mk.inj h
    exact ⟨_, rfl, step_withPending_cons hw _ ops⟩
  | cons b bs ih =>
    obtain ⟨hnone, hrest⟩ := feedAll_cons_eq_nil h
    have hfeed (rest : List Op) : feed b ((s.withPending rest).sampled now reply) =
        ((feed b (s.sampled now reply)).1.withPending rest, none) :=
      hnone ▸ feed_withPending b rest (s.sampled now reply)
    have hstep (rest : List Op) : step (s.withPending (.rxByte ⟨b, now, reply⟩ :: rest)) =
        .next ((feed b (s.sampled now reply)).1.withPending rest) :=
      (step_withPending_cons hw _ rest).trans (rxByte_of_none (x := ⟨b, now, reply⟩) (hfeed rest))
    obtain ⟨u, hrun, hlast⟩ := ih (s := (feed b (s.sampled now reply)).1) (by rw [feed_cfg]; exact hw)
      (by rw [feed_sampled]; exact hrest)
    exact ⟨u, (runSteps_next (hstep _)).trans hrun, hlast⟩

/-- The checksum byte of an instruction, when the rest of its frame is held: held bytes and checksum are its encoding, which
decodes to it. -/
theorem rxByte_checksum_of_receiving {s : State} {i : Instr} {m : Memory} (hw : s.cfg.wf) (hlen : i.payload.length ≤ 1024)
    (hread : m.readFirst i.payload.length = i.payload) (now : Time) (reply : List HandlerOp) :
    rxByte ⟨crc8 s.cfg (covered (s.cfg.cmd i.command) (lengthOf i.payload) i.payload), now, reply⟩
        (s.receiving (s.cfg.cmd i.command) (lengthOf i.payload) m (4 + i.payload.length)) =
      exec i (((s.receiving (s.cfg.cmd i.command) (lengthOf i.payload) m (4 + i.payload.length)).sampled now
        reply).toIdle) := by
  have hn : (lengthOf i.payload).toNat = i.payload.length := lengthOf_toNat hlen
  refine rxByte_of_decode rfl ?_ ?_
  · rw [s.receiving_pos _ _ m (by omega), ← hn]
    rfl
  · simp only [heldBytes, State.receiving, hn, hread]
    simpa [encode, frameBytes] using decode_encode hw hlen []

/-- What a whole frame changes before it is handled: the parser's registers, the ports and the schedule. -/
theorem State.toIdle_sampled_receiving (s : State) (now : Time) (reply : List HandlerOp) (ops : List Op) (c : Byte)
    (n : Half) (m : Memory) (k : Nat) :
    ((((s.sampled now reply).withPending ops).receiving c n m k).sampled now reply).toIdle = { s with
      inFrame := false, pos := 0, rxCommand := c, rxLength := n, rxbuf := m, nowMs := now % 2 ^ s.cfg.timeW,
      reply := reply, pending := ops } := by
  simp only [toIdle, sampled, withReply, sampleNow, withPending, receiving]

/-- Settles O55: all bytes but the last are held by the parser, and the last is the checksum. -/
theorem frameOnTheWireRunsItsInstruction : Obligations.FrameOnTheWireRunsItsInstruction := by
  intro s i now reply ops hw hf hwell hp
  have hlen : i.payload.length ≤ 1024 := of_decide_eq_true hwell
  obtain ⟨m, hfeed, hread⟩ :=
    feedAll_covered (s := s.sampled now reply) hf (s.cfg.cmd i.command) (lengthOf_toNat hlen) hlen
  obtain ⟨u, hrun, hlast⟩ := runSteps_rxBytes hw hfeed
    (crc8 s.cfg (covered (s.cfg.cmd i.command) (lengthOf i.payload) i.payload)) ops
  have hschedule : s = s.withPending (rxBytes now reply (encode s.cfg i) ++ ops) := congrArg s.withPending hp
  rw [covered_length] at hrun
  refine ⟨u, m, (congrArg _ hschedule).trans hrun, hread, ?_⟩
  rw [hlast, ← s.toIdle_sampled_receiving]
  exact rxByte_checksum_of_receiving (s := (s.sampled now reply).withPending ops) hw hlen hread now reply

/-! The phases of a `TICK` (R240, R245). -/

/-- An item of phase 1 does the same to the state whatever is scheduled behind it. -/
theorem applyOp_toOp (item : TickItem) (s : State) :
    ∃ u : State, u.cfg = s.cfg ∧ ∀ ops, applyOp item.toOp (s.withPending ops) = .next (u.withPending ops) := by
  cases item with
  | rx x =>
    obtain ⟨u, hu, _, hcfg, _⟩ := rxByte_takes x s
    refine ⟨u, hcfg, fun ops => ?_⟩
    obtain ⟨v, hv, hops⟩ := rxByte_withPending x ops s
    cases hu.symm.trans hv
    exact hops
  | host op =>
    exact ⟨performHostOp op s, (Handled.quiet (.performHostOp op s)).sameParser.2.1,
      fun ops => congrArg _ (performHostOp_withPending op ops s)⟩

theorem tickStep_cons (item : TickItem) (items : List TickItem) (before : List HostOp) (now : Time) (s : State) :
    tickStep (item :: items) before now s = applyOp item.toOp (s.withPending (.tick items before now :: s.pending)) := by
  cases item <;> rfl

theorem runSteps_congr {s t : State} (h : step s = step t) (n : Nat) : runSteps (n + 1) s = runSteps (n + 1) t := by
  simp only [runSteps, h]

/-- By induction on the items of phase 1; with none left, the `TICK` flushes and schedules what is behind the `FLUSH`. -/
theorem runSteps_tick {s : State} (hw : s.cfg.wf) (items : List TickItem) (before : List HostOp) (now : Time)
    (ops : List Op) (n : Nat) :
    runSteps (items.length + (n + 1)) (s.withPending (.tick items before now :: ops)) =
      runSteps (items.length + (n + 1))
        (s.withPending (items.map TickItem.toOp ++ .flush :: (before.map .host ++ .timerCheck now :: ops))) := by
  induction items generalizing s with
  | nil =>
    rw [List.length_nil, Nat.zero_add]
    exact runSteps_congr ((step_withPending_cons hw _ _).trans (step_withPending_cons hw _ _).symm) n
  | cons item items ih =>
    obtain ⟨u, hcfg, happly⟩ := applyOp_toOp item s
    have htick : step (s.withPending (.tick (item :: items) before now :: ops)) =
        .next (u.withPending (.tick items before now :: ops)) :=
      (step_withPending_cons hw _ _).trans ((tickStep_cons item items before now _).trans (happly _))
    have hphase (rest : List Op) : step (s.withPending (item.toOp :: rest)) = .next (u.withPending rest) :=
      (step_withPending_cons hw _ _).trans (happly rest)
    rw [List.length_cons, Nat.add_right_comm, List.map_cons, List.cons_append, runSteps_next htick,
      runSteps_next (hphase _)]
    exact ih (hcfg ▸ hw)

/-- Settles O51: step for step under a legal configuration; under another both are refused at once. -/
theorem tickRunsItsPhasesInOrder : Obligations.TickRunsItsPhasesInOrder := by
  intro s items before now ops
  by_cases hw : s.cfg.wf
  · exact runSteps_tick hw items before now ops (before.length + 1)
  · have hrefused (rest : List Op) : step (s.withPending rest) = .refused .badConfiguration := step_refused hw
    exact runSteps_congr ((hrefused _).trans (hrefused _).symm) (items.length + before.length + 1)

/-! No step stops (R246). -/

theorem step_idle {s : State} (hw : s.cfg.wf) (hp : s.pending = []) : step s = .next s := by
  rw [step, if_pos ((Config.legal_iff _).mpr hw), hp]

/-- Settles O56: an idle step and `RESET` answer by their definitions, every other operation by what it takes. -/
theorem noStepStops : Obligations.NoStepStops := by
  refine fun s => ⟨fun hw => ?_, step_refused⟩
  cases hp : s.pending with
  | nil => exact ⟨s, step_idle hw hp⟩
  | cons op ops =>
    by_cases hreset : op = .reset
    · subst hreset
      exact ⟨_, step_op hw hp⟩
    · obtain ⟨t, hstep, _⟩ := step_takes hw hp hreset
      exact ⟨t, hstep⟩

end Sys2Proof.Machine

/-! What a byte of the wire peer can cause, with a collaborator that replies nothing (60_exceptions.md R280). -/

namespace Sys2Proof.Machine

/-- `t` is `s` but for the parser, the sampled ports, the registers of a transition, its expression, the queue, `DISP` and
`DIAG`. -/
def WireWrites (s t : State) : Prop := t = { s with
  inFrame := t.inFrame, pos := t.pos, rxCommand := t.rxCommand, rxLength := t.rxLength, rxbuf := t.rxbuf,
  nowMs := t.nowMs, reply := t.reply, currentState := t.currentState, previousState := t.previousState,
  stateEnterTimestamp := t.stateEnterTimestamp, currentExpressionId := t.currentExpressionId, expr := t.expr,
  oq := t.oq, disp := t.disp, diag := t.diag }

/-- At most one handler was called, at the route that its command is bound to (R163). -/
def AtMostOneCall (s t : State) : Prop :=
  t.disp = s.disp ∨ ∃ e, t.disp = s.disp ++ [e] ∧ s.dtab.get e.command = .bound (.ext e.route)

/-- At most one transition, by the internal handler where it is bound, with at most its status frame queued (R200, R202). -/
def AtMostOneTransition (s t : State) : Prop :=
  (SameTransition s t ∧ t.oq = s.oq) ∨
    ∃ r c, s.dtab.get c = .bound .setState ∧ t.previousState = s.currentState ∧ t.currentState = s.cfg.enc r ∧
      t.stateEnterTimestamp = t.nowMs ∧ t.currentExpressionId = exprOf r ∧ t.expr = s.expr ++ [exprOf r] ∧
      (t.oq = s.oq ∨ t.oq = s.oq ++ [statusRecord s (s.cfg.enc r) (exprOf r)])

/-- At most one diagnostic was raised, of those that a received frame can raise (R271). -/
def AtMostOneDiag (s t : State) : Prop :=
  t.diag = s.diag ∨ ∃ d, t.diag = s.diag ++ [d] ∧ 1 ≤ d.code.toNat ∧ d.code.toNat ≤ 5

/-- All that R280 lets a byte of the wire peer do. It does not speak of the parser and the sampled ports of `s`, so what it
says of the state after `FEED` has gone idle it says of the state before. -/
def WireEffects (s t : State) : Prop :=
  WireWrites s t ∧ AtMostOneCall s t ∧ AtMostOneTransition s t ∧ AtMostOneDiag s t

theorem WireWrites.unchanged {s t : State} (h : WireWrites s t) :
    t.dtab = s.dtab ∧ SameValues s t ∧ t.running = s.running ∧ t.tx = s.tx ∧ t.sendResults = s.sendResults ∧
      t.cfg = s.cfg ∧ t.pending = s.pending := by
  rw [h]
  exact ⟨rfl, ⟨rfl, rfl, rfl⟩, rfl, rfl, rfl, rfl, rfl⟩

theorem TransitionWrites.wireWrites {s t : State} (h : TransitionWrites s t) : WireWrites s t := by
  rw [h]; rfl

theorem AtMostOneTransition.refl (s : State) : AtMostOneTransition s s := .inl ⟨⟨rfl, rfl, rfl, rfl, rfl⟩, rfl⟩

theorem AtMostOneTransition.transition {s : State} {c : Byte} (hbound : s.dtab.get c = .bound .setState)
    (r : RealState) : AtMostOneTransition s (transition r s) := by
  rcases transition_cases r s with ⟨_, e⟩ | ⟨_, _, e⟩ | ⟨_, _, e⟩ <;> rw [e]
  · exact .refl s
  · exact .inr ⟨r, c, hbound, rfl, rfl, rfl, rfl, rfl, .inl rfl⟩
  · exact .inr ⟨r, c, hbound, rfl, rfl, rfl, rfl, rfl, .inr rfl⟩

/-- A transition raises nothing but `DIAG_QUEUE_FULL` (R202). -/
theorem AtMostOneDiag.transition (r : RealState) (s : State) : AtMostOneDiag s (transition r s) := by
  rcases transition_cases r s with ⟨_, e⟩ | ⟨_, _, e⟩ | ⟨_, _, e⟩ <;> rw [e]
  · exact .inl rfl
  · exact .inr ⟨.queueFull s.cfg.statusCmd, rfl, by simp [Diag.code]⟩
  · exact .inl rfl

/-- `FEED` raises nothing but `DIAG_OVERSIZE_ABANDON` (R130). -/
theorem AtMostOneDiag.feed (b : Byte) (s : State) : AtMostOneDiag s (feed b s).1 := by
  rcases feed_cases b s with ⟨_, _, e⟩ | ⟨_, _, e⟩ | ⟨_, u, hu, ho⟩ | ⟨_, _, _, _, _, e⟩
  · exact .inl (by rw [e])
  · exact .inl (by rw [e]; rfl)
  · have stored : u.diag = s.diag := by
      rcases hu with ⟨_, rfl⟩ | ⟨_, rfl⟩ | ⟨_, rfl⟩ | ⟨_, _, _, _, rfl⟩
      · rfl
      · rfl
      · rfl
      · split <;> rfl
    rcases ho with ⟨_, e⟩ | ⟨_, e⟩ <;> rw [e]
    · exact .inr ⟨.oversizeAbandon u.rxCommand u.rxLength, congrArg (· ++ _) stored, by simp [Diag.code]⟩
    · exact .inl stored
  · exact .inl (by rw [e]; rfl)

/-- A byte that completes a frame leaves the parser idle and does nothing else (R131): only the checksum arm returns one. -/
theorem feed_eq_toIdle_of_frame {b : Byte} {s : State} {f : RxFrame} (h : (feed b s).2 = some f) :
    (feed b s).1 = s.toIdle := by
  rcases feed_cases b s with ⟨_, _, e⟩ | ⟨_, _, e⟩ | ⟨_, _, _, ⟨_, e⟩ | ⟨_, e⟩⟩ | ⟨_, _, _, _, _, e⟩ <;> rw [e] at h ⊢
  all_goals cases h

namespace WireEffects

theorem raise (s : State) {d : Diag} (hd : 1 ≤ d.code.toNat ∧ d.code.toNat ≤ 5) : WireEffects s (s.raise d) :=
  ⟨rfl, .inl rfl, .refl s, .inr ⟨d, rfl, hd⟩⟩

theorem feed (b : Byte) (s : State) : WireEffects s (feed b s).1 := by
  have hdiag := AtMostOneDiag.feed b s
  obtain ⟨u, e⟩ := feed_eq_with_parser b s
  rw [e] at hdiag ⊢
  exact ⟨rfl, .inl rfl, .refl s, hdiag⟩

theorem transition {s : State} {c : Byte} (hbound : s.dtab.get c = .bound .setState) (r : RealState) :
    WireEffects s (transition r s) :=
  have hwrites := TransitionWrites.transition r s
  ⟨hwrites.wireWrites, .inl hwrites.disp_eq, .transition hbound r, .transition r s⟩

theorem hSetState {s : State} {c : Byte} (hbound : s.dtab.get c = .bound .setState) (p : List Byte) :
    WireEffects s (hSetState p s) := by
  rcases hSetState_cases p s with ⟨_, e⟩ | ⟨_, _, _, _, e⟩ | ⟨_, _, r, _, _, e⟩ <;> rw [e]
  · exact raise s (by simp [Diag.code])
  · exact raise s (by simp [Diag.code])
  · exact transition hbound r

theorem dispatch {s : State} (hreply : s.reply = []) (c : Byte) (p : List Byte) : WireEffects s (dispatch c p s) := by
  rcases dispatch_cases c p s with ⟨_, e⟩ | ⟨hbound, e⟩ | ⟨r, hbound, e⟩ <;> rw [e]
  · exact raise s (by simp [Diag.code])
  · exact hSetState hbound p
  · rw [hreply]
    exact ⟨rfl, .inr ⟨⟨r, c, lengthOf p, p⟩, rfl, hbound⟩, .refl s, .inl rfl⟩

/-- `RX_BYTE`: a byte without a frame does what `FEED` does, and a frame finds nothing done but the parser gone idle (R242). -/
theorem rxByte {s t : State} {x : RxSample} (hreply : x.reply = []) (h : rxByte x s = .next t) : WireEffects s t := by
  obtain ⟨u, rfl, ⟨_, e⟩ | ⟨f, hf, _, e⟩ | ⟨f, hf, _, e⟩⟩ := rxByte_cases x s <;> cases e.symm.trans h
  · exact feed x.byte ((s.sampleNow x.now).withReply x.reply)
  · rw [feed_eq_toIdle_of_frame hf]
    exact dispatch (s := ((s.sampleNow x.now).withReply x.reply).toIdle) hreply f.command f.payload
  · rw [feed_eq_toIdle_of_frame hf]
    exact raise ((s.sampleNow x.now).withReply x.reply).toIdle (d := .checksumMismatch ..) (by simp [Diag.code])

end WireEffects

/-- Settles O58: the step applies the `RX_BYTE`, whose effects on `s` are those on `s` with the byte taken off the schedule. -/
theorem wirePeerAuthority : Obligations.WirePeerAuthority := by
  intro s t b now ops hp h
  obtain ⟨hw, _⟩ := step_cases h
  have hrx : rxByte ⟨b, now, []⟩ (s.withPending ops) = .next t := (step_op hw hp).symm.trans h
  obtain ⟨hwrites, hcall, htransition, hdiag⟩ := WireEffects.rxByte rfl hrx
  obtain ⟨hdtab, hvalues, hrunning, htx, hresults, hcfg, hpending⟩ := hwrites.unchanged
  exact ⟨hdtab, hvalues, hrunning, htx, hresults, hcfg, hpending, hcall, htransition, hdiag⟩

end Sys2Proof.Machine

/-! Reset, the boot sequence after it, and the flush of a wedged parser (70_reset_and_hazards.md R300, R303, R329). -/

namespace Sys2Proof.Machine

theorem step_reset {s : State} {ops : List Op} (hw : s.cfg.wf) (hp : s.pending = .reset :: ops) :
    step s = .next (resetOp (s.withPending ops)) :=
  step_op hw hp

/-- Settles O49: the step applies `RESET`, which writes the reset column and keeps the streams and the ports. -/
theorem resetStep : Obligations.ResetStep := fun s ops hw hp =>
  ⟨resetOp (s.withPending ops), step_reset hw hp, rfl, rfl, rfl, Dtab.get_empty, rfl, rfl, rfl, rfl, rfl, rfl, rfl, rfl,
    rfl, rfl, rfl, rfl, rfl, rfl, rfl, rfl⟩

/-- Settles O50: after `RESET` the state is `IDLE` and the queue empty, so that `INIT` makes its transition and queues the
status frame. -/
theorem stateAfterResetThenInit : Obligations.StateAfterResetThenInit := by
  intro s u now ops hcfg hp hu
  have hw : s.cfg.wf := hcfg ▸ Config.default_wf
  cases (step_reset hw hp).symm.trans hu
  obtain ⟨d, hself, hother, _, hroom, _⟩ := initStep (resetOp (s.withPending (.init now :: ops))) now ops hw rfl
  have hidle : s.cfg.stIdle ≠ s.cfg.stSleep := (Config.enc_ne_idle hw .sleep).symm
  have hempty : 0 ≠ s.cfg.qDepth := by rw [hcfg]; decide
  have hframe : serialize (statusRecord (.resetWith s.cfg) s.cfg.stSleep 0x00) =
      [0xAA, 0x07, 0x07, 0x00, 0x01, 0x64, 0x00, 0x5A, 0x00, 0x5A, 0x00, 0x2D] := by
    rw [hcfg]; decide
  exact ⟨_, hroom hidle hempty, rfl, rfl, hself, fun c hc => (hother c hc).trans (Dtab.get_empty c),
    congrArg Config.stIdle hcfg, congrArg Config.stSleep hcfg, congrArg (now % 2 ^ ·.timeW) hcfg,
    congrArg Config.batteryReset hcfg, rfl, congrArg Config.servoHReset hcfg, congrArg Config.servoVReset hcfg, rfl,
    congrArg ([·]) hframe, rfl, rfl, rfl, rfl⟩

/-- The offset behind the last byte of the attempt in hand when zero bytes follow: a header that is not whole gets a high
length byte 0, so a length of at most 255, and no attempt goes beyond `MAX_FRAME` (R128, R130). -/
def State.endUnderZeros (s : State) : Nat := if s.pos.toNat < 4 then 260 else min (5 + s.rxLength.toNat) 1029

/-- The parser meets R52 (a), (b), and `n` zero bytes end the attempt in hand, if there is one. -/
def ZerosEndAttempt (n : Nat) (s : State) : Prop :=
  ParserInv s ∧ (s.inFrame = true → s.endUnderZeros ≤ s.pos.toNat + n)

namespace ZerosEndAttempt

variable {s : State} {n : Nat}

theorem of_parserInv (h : ParserInv s) (hn : 1025 ≤ n) : ZerosEndAttempt n s := by
  refine ⟨h, fun hf => ?_⟩
  obtain ⟨hge, _⟩ := h.1.2 hf
  unfold State.endUnderZeros
  split <;> omega

theorem toIdle (n : Nat) (s : State) : ZerosEndAttempt n s.toIdle :=
  ⟨⟨⟨fun _ => rfl, nofun⟩, nofun⟩, nofun⟩

theorem atPos {k : Nat} (h1 : 1 ≤ k) (hk : k ≤ 1028) (hheader : k < 4 → 260 ≤ k + n)
    (hpayload : 4 ≤ k → k ≤ 4 + s.rxLength.toNat ∧ min (5 + s.rxLength.toNat) 1029 ≤ k + n) :
    ZerosEndAttempt n (s.atPos k) := by
  have hpos : (s.atPos k).pos.toNat = k := Nat.mod_eq_of_lt (show k < 2048 by omega)
  refine ⟨⟨⟨nofun, fun _ => hpos.symm ▸ ⟨h1, hk⟩⟩, fun _ => hpos.symm ▸ fun hge => (hpayload hge).1⟩, fun _ => ?_⟩
  rw [State.endUnderZeros, hpos]
  split
  next hlt => exact hheader hlt
  next hge => exact (hpayload (Nat.not_lt.mp hge)).2

/-- One zero byte brings the end of the attempt nearer by one, in each of the arms of `FEED`. -/
theorem feed_zero (h : ZerosEndAttempt (n + 1) s) : ZerosEndAttempt n (feed 0x00 s).1 := by
  obtain ⟨hinv, hend⟩ := h
  cases hf : s.inFrame with
  | false =>
    rw [feed_idle_of_ne_head hf (by decide)]
    exact ⟨hinv, fun hf' => nomatch hf.symm.trans hf'⟩
  | true =>
    obtain ⟨hge, hle⟩ := hinv.1.2 hf
    have hinside := hinv.2 hf
    have hlast := hend hf
    by_cases hheader : s.pos.toNat < 4
    · rw [State.endUnderZeros, if_pos hheader] at hlast
      obtain h1 | h2 | h3 : s.pos.toNat = 1 ∨ s.pos.toNat = 2 ∨ s.pos.toNat = 3 := by omega
      · rw [feed_command hf h1]
        exact atPos (by omega) (by omega) (by omega) (by omega)
      · rw [feed_lengthLow hf h2]
        exact atPos (by omega) (by omega) (by omega) (by omega)
      · rw [feed_lengthHigh hf h3]
        have hlength : (le16 (lo8 s.rxLength) 0x00).toNat < 256 := by
          rw [le16_toNat]
          exact (lo8 s.rxLength).isLt
        refine atPos (by omega) (by omega) (by omega) fun _ => ?_
        rw [State.withLength_rxLength]
        omega
    · rw [State.endUnderZeros, if_neg hheader] at hlast
      have hbefore := hinside (Nat.not_lt.mp hheader)
      by_cases hsum : s.pos.toNat = 4 + s.rxLength.toNat
      · rw [feed_checksum hf hsum]
        exact toIdle n s
      by_cases hbuf : s.pos.toNat ≤ 1027
      · rw [feed_payload hf (by omega) (by omega) hbuf]
        refine atPos (by omega) (by omega) (by omega) fun _ => ?_
        rw [State.storeRx_rxLength]
        omega
      · rw [feed_bound hf (by omega) (by omega)]
        exact toIdle n _

theorem feedAll_zeros (h : ZerosEndAttempt n s) : ZerosEndAttempt 0 (feedAll (List.replicate n 0x00) s).1 := by
  induction n generalizing s with
  | zero => exact h
  | succ n ih => exact ih h.feed_zero

theorem idle (h : ZerosEndAttempt 0 s) : s.inFrame = false ∧ s.pos = 0 := by
  obtain ⟨⟨⟨hzero, hrange⟩, hinside⟩, hend⟩ := h
  cases hf : s.inFrame with
  | false => exact ⟨rfl, hzero hf⟩
  | true =>
    obtain ⟨_, hle⟩ := hrange hf
    have hbefore := hinside hf
    have hlast := hend hf
    unfold State.endUnderZeros at hlast
    split at hlast <;> omega

end ZerosEndAttempt

/-- Settles O22: each zero byte brings the end of an attempt nearer by one, and none begins an attempt. -/
theorem zerosForceTheParserIdle : Obligations.ZerosForceTheParserIdle :=
  fun _ _ hinv hn => (ZerosEndAttempt.of_parserInv hinv hn).feedAll_zeros.idle

end Sys2Proof.Machine
